-- ==== Sys2Proof/Word.lean ====
section
/-! DEFINITION. The word type and the index ranges of the device (00_scope.md section 6). -/

namespace Sys2Proof

/-- A word is 32 bits, bit 0 the least significant (00_scope.md section 6, "Words and addresses"). -/
abbrev Word := BitVec 32

/-- Sequence numbers, tags, produced and consumed counts and wait limits: 16-bit values. -/
abbrev Half := BitVec 16

/-- Stations 0 to 7 (00_scope.md section 6, "Index ranges"). -/
abbrev StationId := Fin 8

/-- Channels 0 to 63. -/
abbrev ChannelId := Fin 64

/-- Locks 0 to 31. -/
abbrev LockId := Fin 32

/-- Classes 0 to 3, class 0 most urgent. -/
abbrev ClassId := Fin 4

/-- Notification sources 0 to 7. -/
abbrev SourceId := Fin 8

/-- Descriptors 0 to 255. -/
abbrev DescId := Fin 256

/-- Cells 0 to 1023. -/
abbrev CellId := Fin 1024

end Sys2Proof
end

