-- ==== Sys2Proof/Machine/Bits.lean ====
section
/-! DEFINITION. Bit fields of words, table lookup and update by index: the helpers every other file of the machine uses.
A field is the bits lo + n - 1 down to lo of a word (00_scope.md section 6: layout tables list bit ranges). -/

namespace Sys2Proof.Machine

/-- The field of `w` that starts at bit `lo` and takes the values 0 to n - 1; n is a power of two. -/
def fieldAt (w : Word) (lo n : Nat) [NeZero n] : Fin n := Fin.ofNat n (w.toNat / 2 ^ lo)

/-- The one-bit field at bit `lo`. -/
def flagAt (w : Word) (lo : Nat) : Bool := w.toNat / 2 ^ lo % 2 == 1

/-- A flag as the value of a one-bit field. -/
def flagValue (b : Bool) : Nat := if b then 1 else 0

/-- The sum of the given (lowest bit, value) pairs, each value shifted to its place. -/
def placed : List (Nat × Nat) → Nat
  | [] => 0
  | (lo, v) :: rest => v * 2 ^ lo + placed rest

/-- The word whose fields are the given (lowest bit, value) pairs; bits no field names are 0 (R187). -/
def pack (fields : List (Nat × Nat)) : Word := BitVec.ofNat 32 (placed fields)

/-- Entry `i` of a table of fixed size. -/
def entry {α : Type} {n : Nat} (v : Vector α n) (i : Fin n) : α := v[i.val]

/-- The table with entry `i` replaced. -/
def put {α : Type} {n : Nat} (v : Vector α n) (i : Fin n) (x : α) : Vector α n := v.set i.val x

/-- The table with every entry passed through `f`. -/
def mapTable {α β : Type} {n : Nat} (f : α → β) (v : Vector α n) : Vector β n :=
  ⟨⟨v.toList.map f⟩, by simp⟩

end Sys2Proof.Machine
end

