-- ==== Sys2Proof/Syntax.lean ====
section
/-! DEFINITION. The words of the window (Tables 10-1, 10-2) and the commands of the device: one constructor of
`Instr` for each row of spec/opcode_table.json. -/

namespace Sys2Proof

/-- The words an aperture maps (Table 10-1). -/
inductive ApertureWord where
  | command | result | supOperand | stationStatus | waitLimits | sendTag | sendResult
  | queueLengths | queueLimits | readHeader0 | readHeader1 | confirmHead | locksOwned
  | ringBase | ringSlots | ringIndexAddr | ringConsumed | ringStatus | ringCounts
  | notifyPending | notifyEnable | notifyDisarm | notifyLevels | vectorBase
  | ack | endService | inService | faultRecord | faultDetail
  | staging (k : Fin 64)
  | payload (i : Fin 64)
  deriving DecidableEq, Repr

/-- The words the global page maps (Table 10-2). -/
inductive GlobalWord where
  | stationStates | storeStatus | roomQueue | engineStatus | engineConfig | tickConfig
  | channelRoute (c : ChannelId)
  | channelCount (c : ChannelId)
  | lockRecord (l : LockId)
  | lockWaiters (l : LockId)
  deriving DecidableEq, Repr

/-- A mapped word of the window: one of station `a`'s aperture, or one of the global page (R178). -/
inductive WindowWord where
  | aperture (a : StationId) (w : ApertureWord)
  | global (g : GlobalWord)
  deriving DecidableEq, Repr

/-- The commands. `a` is the station whose aperture the access falls in, or whose event it is. -/
inductive Instr where
  /-- ATTACH, R166. -/
  | attach (a : StationId)
  /-- RETIRE, R168. -/
  | retire (a : StationId)
  /-- RETIRE_STATION, R169: `t` is the station to retire. -/
  | retireStation (a t : StationId)
  /-- POST, R42: the length is the 7-bit operand field, 0 to 127. -/
  | post (a : StationId) (ch : ChannelId) (len : Fin 128) (pass : Bool) (l : LockId)
  /-- CANCEL_POST, R49. -/
  | cancelPost (a : StationId)
  /-- TAKE, R66. -/
  | take (a : StationId) (c : ClassId)
  /-- TAKE_ANY, R67. -/
  | takeAny (a : StationId)
  /-- RELEASE, R72. -/
  | release (a : StationId)
  /-- ACQUIRE, R97. -/
  | acquire (a : StationId) (l : LockId)
  /-- TRY_LOCK, R98. -/
  | tryLock (a : StationId) (l : LockId)
  /-- RELEASE_LOCK, R99. -/
  | releaseLock (a : StationId) (l : LockId)
  /-- CANCEL_WAIT, R100. -/
  | cancelWait (a : StationId)
  /-- POP_CONFIRM, R89. -/
  | popConfirm (a : StationId)
  /-- SET_QLIMIT, R61: the limit is an 8-bit operand field. -/
  | setQlimit (a : StationId) (c : ClassId) (limit : Fin 256)
  /-- ENABLE_RING, R118. -/
  | enableRing (a : StationId)
  /-- DISABLE_RING, R122. -/
  | disableRing (a : StationId)
  /-- RESUME_RING, R123. -/
  | resumeRing (a : StationId)
  /-- OPEN_CHANNEL, R24 and R25: the sender mask comes from SUP_OPERAND. -/
  | openChannel (a : StationId) (ch : ChannelId) (dest : StationId) (c : ClassId) (hold confirm pass : Bool)
      (limit : Fin 256)
  /-- CLOSE_CHANNEL, R26. -/
  | closeChannel (a : StationId) (ch : ChannelId)
  /-- FORCE_RELEASE, R111. -/
  | forceRelease (a : StationId) (l : LockId)
  /-- SET_TICK, R185: TICK_DIV comes from SUP_OPERAND. -/
  | setTick (a : StationId)
  /-- SET_ENGINE, R136. -/
  | setEngine (a : StationId) (response : Fin 256) (retry : Fin 8) (burst : Fin 32)
  /-- BAD_COMMAND, R164: a COMMAND write whose code names no command. -/
  | badCommand (a : StationId) (code : BitVec 8)
  /-- STAGING_WRITE, R37 and R38. -/
  | stagingWrite (a : StationId) (k : Fin 64) (w : Word)
  /-- RING_CONSUMED, R120. -/
  | ringConsumed (a : StationId) (w : Word)
  /-- NOTIFY_PENDING, R142. -/
  | notifyPending (a : StationId) (w : Word)
  /-- NOTIFY_ENABLE, R143. -/
  | notifyEnable (a : StationId) (w : Word)
  /-- NOTIFY_DISARM, R143. -/
  | notifyDisarm (a : StationId) (w : Word)
  /-- NOTIFY_LEVELS, R143. -/
  | notifyLevels (a : StationId) (w : Word)
  /-- VECTOR_BASE, R143. -/
  | vectorBase (a : StationId) (w : Word)
  /-- ACK, R147 and R148: a whole-word read of ACK. -/
  | ack (a : StationId)
  /-- END_SERVICE, R150. -/
  | endService (a : StationId) (w : Word)
  /-- CONFIRM_HEAD_WRITE, R90. -/
  | confirmHeadWrite (a : StationId) (w : Word)
  /-- FAULT_RECORD_WRITE, R158. -/
  | faultRecordWrite (a : StationId) (w : Word)
  /-- WAIT_LIMITS, R174. -/
  | waitLimits (a : StationId) (w : Word)
  /-- REGISTER_WRITE, R181 and R182: a whole-word write to a mapped word that has no row of its own. -/
  | registerWrite (t : WindowWord) (w : Word)
  /-- PARTIAL_OR_UNMAPPED_ACCESS, R180: `off` is the word number A[14:2], `be` the byte enables BE[3:0]. -/
  | partialOrUnmappedAccess (off : Fin 8192) (be : BitVec 4) (write : Bool)
  /-- RESET, R177: `supv` is the strap on SUPV[2:0]. -/
  | reset (supv : StationId)
  /-- TICK, R184. -/
  | tick
  /-- ROOM_WAIT_TIMER_EXPIRY, R15. -/
  | roomWaitTimerExpiry (a : StationId)
  /-- WAIT_TIMER_EXPIRY, R103. -/
  | waitTimerExpiry (a : StationId)
  /-- RESPONSE_LIMIT_EXPIRY, R129. -/
  | responseLimitExpiry
  /-- COPY_COMPLETION, R52: the copy of station `a`'s post completes. -/
  | copyCompletion (a : StationId)
  /-- BUS_GRANT, R127. -/
  | busGrant
  /-- BRQ_REASSERT, R127. -/
  | brqReassert
  /-- RESP_COMPLETE, R128, R132, R133. -/
  | respComplete
  /-- RESP_RETRY, R130. -/
  | respRetry
  /-- RESP_FAULT, R129, R131. -/
  | respFault
  deriving DecidableEq, Repr

end Sys2Proof
end

