-- ==== Sys2Proof/Machine/Window.lean ====
section
/-! DEFINITION. The window decode: which word of the device an offset names (R178, R181, R182), and which words a
write reaches through a row of its own. -/

namespace Sys2Proof.Machine

/-- The word of an aperture at word number `k` (byte offset 4k), by Table 10-1; none where the offset is unmapped. -/
def apertureWordAt (k : Nat) : Option ApertureWord :=
  if h : 0x40 ≤ k ∧ k < 0x80 then some (.staging ⟨k - 0x40, by omega⟩)
  else if h : 0x80 ≤ k ∧ k < 0xC0 then some (.payload ⟨k - 0x80, by omega⟩)
  else match k with
  | 0x00 => some .command
  | 0x01 => some .result
  | 0x02 => some .supOperand
  | 0x03 => some .stationStatus
  | 0x04 => some .waitLimits
  | 0x05 => some .sendTag
  | 0x06 => some .sendResult
  | 0x08 => some .queueLengths
  | 0x09 => some .queueLimits
  | 0x0A => some .readHeader0
  | 0x0B => some .readHeader1
  | 0x0C => some .confirmHead
  | 0x0D => some .locksOwned
  | 0x10 => some .ringBase
  | 0x11 => some .ringSlots
  | 0x12 => some .ringIndexAddr
  | 0x13 => some .ringConsumed
  | 0x14 => some .ringStatus
  | 0x15 => some .ringCounts
  | 0x20 => some .notifyPending
  | 0x21 => some .notifyEnable
  | 0x22 => some .notifyDisarm
  | 0x23 => some .notifyLevels
  | 0x24 => some .vectorBase
  | 0x25 => some .ack
  | 0x26 => some .endService
  | 0x27 => some .inService
  | 0x28 => some .faultRecord
  | 0x29 => some .faultDetail
  | _ => none

/-- The word number of an aperture word within its aperture (Table 10-1). -/
def apertureWordNumber : ApertureWord → Nat
  | .command => 0x00
  | .result => 0x01
  | .supOperand => 0x02
  | .stationStatus => 0x03
  | .waitLimits => 0x04
  | .sendTag => 0x05
  | .sendResult => 0x06
  | .queueLengths => 0x08
  | .queueLimits => 0x09
  | .readHeader0 => 0x0A
  | .readHeader1 => 0x0B
  | .confirmHead => 0x0C
  | .locksOwned => 0x0D
  | .ringBase => 0x10
  | .ringSlots => 0x11
  | .ringIndexAddr => 0x12
  | .ringConsumed => 0x13
  | .ringStatus => 0x14
  | .ringCounts => 0x15
  | .notifyPending => 0x20
  | .notifyEnable => 0x21
  | .notifyDisarm => 0x22
  | .notifyLevels => 0x23
  | .vectorBase => 0x24
  | .ack => 0x25
  | .endService => 0x26
  | .inService => 0x27
  | .faultRecord => 0x28
  | .faultDetail => 0x29
  | .staging k => 0x40 + k.val
  | .payload i => 0x80 + i.val

/-- The word of the global page at word number `k` within the page, by Table 10-2; none where unmapped. -/
def globalWordAt (k : Nat) : Option GlobalWord :=
  if h : 0x40 ≤ k ∧ k < 0xC0 then
    if k % 2 = 0 then some (.channelRoute ⟨(k - 0x40) / 2, by omega⟩)
    else some (.channelCount ⟨(k - 0x40) / 2, by omega⟩)
  else if h : 0xC0 ≤ k ∧ k < 0x100 then
    if k % 2 = 0 then some (.lockRecord ⟨(k - 0xC0) / 2, by omega⟩)
    else some (.lockWaiters ⟨(k - 0xC0) / 2, by omega⟩)
  else match k with
  | 0 => some .stationStates
  | 1 => some .storeStatus
  | 2 => some .roomQueue
  | 3 => some .engineStatus
  | 4 => some .engineConfig
  | 5 => some .tickConfig
  | _ => none

/-- The word number of a global word within the global page (Table 10-2). -/
def globalWordNumber : GlobalWord → Nat
  | .stationStates => 0
  | .storeStatus => 1
  | .roomQueue => 2
  | .engineStatus => 3
  | .engineConfig => 4
  | .tickConfig => 5
  | .channelRoute c => 0x40 + 2 * c.val
  | .channelCount c => 0x41 + 2 * c.val
  | .lockRecord l => 0xC0 + 2 * l.val
  | .lockWaiters l => 0xC1 + 2 * l.val

/-- The station whose aperture the word number `off` = A[14:2] falls in; none in the global page and the unmapped
region (R178: aperture s is s × 0x800 to s × 0x800 + 0x7FC, which is 512 words). -/
def apertureOf (off : Fin 8192) : Option StationId :=
  if h : off.val < 4096 then some ⟨off.val / 512, by omega⟩ else none

/-- The byte offset of the word within its aperture, 0x000 to 0x7FC, taken even when it is unmapped (R180). -/
def apertureOffset (off : Fin 8192) : Nat := 4 * (off.val % 512)

/-- The mapped word at word number `off` = A[14:2] of the window; none where nothing is mapped (R178, R181, R182). -/
def windowWordAt (off : Fin 8192) : Option WindowWord :=
  match apertureOf off with
  | some a => (apertureWordAt (off.val % 512)).map (.aperture a)
  | none => if off.val < 5120 then (globalWordAt (off.val - 4096)).map .global else none

/-- The word number A[14:2] of a mapped word. -/
def windowWordNumber : WindowWord → Nat
  | .aperture a w => 512 * a.val + apertureWordNumber w
  | .global g => 4096 + globalWordNumber g

/-- A whole-word write to this word has a row of its own in spec/opcode_table.json, so REGISTER_WRITE does not name it. -/
def hasOwnRow : WindowWord → Bool
  | .aperture _ .command => true
  | .aperture _ .waitLimits => true
  | .aperture _ .confirmHead => true
  | .aperture _ .ringConsumed => true
  | .aperture _ .notifyPending => true
  | .aperture _ .notifyEnable => true
  | .aperture _ .notifyDisarm => true
  | .aperture _ .notifyLevels => true
  | .aperture _ .vectorBase => true
  | .aperture _ .endService => true
  | .aperture _ .faultRecord => true
  | .aperture _ (.staging _) => true
  | _ => false

/-- All four byte enables are asserted (R180). -/
def wholeWord (be : BitVec 4) : Bool := be == 15

end Sys2Proof.Machine
end

