-- ==== Sys2Proof/WellFormed.lean ====
section
/-! DEFINITION. Which commands are those of the table: the operand types bound every other operand. -/

namespace Sys2Proof

/-- The command codes of Table 10-4. -/
def commandCodes : List (BitVec 8) :=
  [0x01, 0x02, 0x03, 0x04, 0x05, 0x06, 0x07, 0x08, 0x09, 0x0A, 0x0B, 0x0C, 0x0D, 0x0E, 0x0F, 0x10,
   0x20, 0x21, 0x22, 0x23, 0x24, 0x25]

/-- A command is well formed: BAD_COMMAND has a code that names no command (R164), REGISTER_WRITE names a word without a
row of its own (R181), PARTIAL_OR_UNMAPPED_ACCESS is partial or unmapped (R180). -/
def wellFormed : Instr → Bool
  | .badCommand _ code => !commandCodes.contains code
  | .registerWrite t _ => !Machine.hasOwnRow t
  | .partialOrUnmappedAccess off be _ => !Machine.wholeWord be || (Machine.windowWordAt off).isNone
  | _ => true

end Sys2Proof
end

