-- ==== Sys2Proof/Decode.lean ====
section
/-! DEFINITION. The decoding the spec gives: of COMMAND words (R188, Table 10-4) and of window accesses (R178 to R183), with
the encoder of each. spec/opcode_table.json gives its rows no bits, so `decodeTableWord` answers none. -/

namespace Sys2Proof

open Machine (fieldAt flagAt flagValue pack)

/-- No row of spec/opcode_table.json gives bits, so no word spells a command by them (log entry 13). -/
def decodeTableWord (_nbits _w : Nat) : Option Instr := none

/-- The command a whole-word write of `w` to COMMAND of aperture `a` is (R163, R188, Table 10-4). A code that names no
command is BAD_COMMAND (R164). Bits the row does not name are ignored. -/
def decodeCommand (a : StationId) (w : Word) : Instr :=
  match w.toNat % 256 with
  | 0x01 => .attach a
  | 0x02 => .retire a
  | 0x03 => .post a (fieldAt w 8 64) (fieldAt w 14 128) (flagAt w 21) (fieldAt w 22 32)
  | 0x04 => .cancelPost a
  | 0x05 => .take a (fieldAt w 8 4)
  | 0x06 => .takeAny a
  | 0x07 => .release a
  | 0x08 => .acquire a (fieldAt w 8 32)
  | 0x09 => .tryLock a (fieldAt w 8 32)
  | 0x0A => .releaseLock a (fieldAt w 8 32)
  | 0x0B => .cancelWait a
  | 0x0C => .popConfirm a
  | 0x0D => .setQlimit a (fieldAt w 8 4) (fieldAt w 16 256)
  | 0x0E => .enableRing a
  | 0x0F => .disableRing a
  | 0x10 => .resumeRing a
  | 0x20 =>
    .openChannel a (fieldAt w 8 64) (fieldAt w 14 8) (fieldAt w 17 4) (flagAt w 19) (flagAt w 20) (flagAt w 21)
      (fieldAt w 24 256)
  | 0x21 => .closeChannel a (fieldAt w 8 64)
  | 0x22 => .retireStation a (fieldAt w 8 8)
  | 0x23 => .forceRelease a (fieldAt w 8 32)
  | 0x24 => .setTick a
  | 0x25 => .setEngine a (fieldAt w 8 256) (fieldAt w 16 8) (fieldAt w 19 32)
  | code => .badCommand a (BitVec.ofNat 8 code)

/-- A COMMAND word of a command, with the bits its row does not name 0 (R188, Table 10-4), and the aperture it is written
in; none for a row that is no COMMAND write. -/
def encodeCommand : Instr → Option (StationId × Word)
  | .attach a => some (a, pack [(0, 0x01)])
  | .retire a => some (a, pack [(0, 0x02)])
  | .post a ch len pass l => some (a, pack [(0, 0x03), (8, ch.val), (14, len.val), (21, flagValue pass), (22, l.val)])
  | .cancelPost a => some (a, pack [(0, 0x04)])
  | .take a c => some (a, pack [(0, 0x05), (8, c.val)])
  | .takeAny a => some (a, pack [(0, 0x06)])
  | .release a => some (a, pack [(0, 0x07)])
  | .acquire a l => some (a, pack [(0, 0x08), (8, l.val)])
  | .tryLock a l => some (a, pack [(0, 0x09), (8, l.val)])
  | .releaseLock a l => some (a, pack [(0, 0x0A), (8, l.val)])
  | .cancelWait a => some (a, pack [(0, 0x0B)])
  | .popConfirm a => some (a, pack [(0, 0x0C)])
  | .setQlimit a c limit => some (a, pack [(0, 0x0D), (8, c.val), (16, limit.val)])
  | .enableRing a => some (a, pack [(0, 0x0E)])
  | .disableRing a => some (a, pack [(0, 0x0F)])
  | .resumeRing a => some (a, pack [(0, 0x10)])
  | .openChannel a ch dest c hold confirm pass limit =>
    some (a, pack [(0, 0x20), (8, ch.val), (14, dest.val), (17, c.val), (19, flagValue hold), (20, flagValue confirm),
      (21, flagValue pass), (24, limit.val)])
  | .closeChannel a ch => some (a, pack [(0, 0x21), (8, ch.val)])
  | .retireStation a t => some (a, pack [(0, 0x22), (8, t.val)])
  | .forceRelease a l => some (a, pack [(0, 0x23), (8, l.val)])
  | .setTick a => some (a, pack [(0, 0x24)])
  | .setEngine a response retry burst =>
    some (a, pack [(0, 0x25), (8, response.val), (16, retry.val), (19, burst.val)])
  | .badCommand a code => some (a, pack [(0, code.toNat)])
  | _ => none

/-- An access to the window as the pins carry it (R178, R180): A[14:2], BE[3:0], RW, and D[31:0] of a write. -/
structure BusAccess where
  off : Fin 8192
  be : BitVec 4
  write : Bool
  data : Word
  deriving DecidableEq, Repr

/-- The command a whole-word write of `w` to a mapped word is (Tables 10-1 and 10-2). -/
def decodeWrite (t : WindowWord) (w : Word) : Instr :=
  match t with
  | .aperture a .command => decodeCommand a w
  | .aperture a .waitLimits => .waitLimits a w
  | .aperture a .confirmHead => .confirmHeadWrite a w
  | .aperture a .ringConsumed => .ringConsumed a w
  | .aperture a .notifyPending => .notifyPending a w
  | .aperture a .notifyEnable => .notifyEnable a w
  | .aperture a .notifyDisarm => .notifyDisarm a w
  | .aperture a .notifyLevels => .notifyLevels a w
  | .aperture a .vectorBase => .vectorBase a w
  | .aperture a .endService => .endService a w
  | .aperture a .faultRecord => .faultRecordWrite a w
  | .aperture a (.staging k) => .stagingWrite a k w
  | t => .registerWrite t w

/-- The command an access is (R178 to R183). None for a whole-word read of a mapped word other than ACK: it changes
nothing, and `Machine.readWord` gives what it returns. -/
def decodeAccess (x : BusAccess) : Option Instr :=
  match Machine.windowWordAt x.off with
  | none => some (.partialOrUnmappedAccess x.off x.be x.write)
  | some t =>
    if Machine.wholeWord x.be then
      if x.write then some (decodeWrite t x.data)
      else
        match t with
        | .aperture a .ack => some (.ack a)
        | _ => none
    else some (.partialOrUnmappedAccess x.off x.be x.write)

/-- A whole-word write of `w` to a mapped word. -/
def writeTo (t : WindowWord) (w : Word) : BusAccess where
  off := Fin.ofNat 8192 (Machine.windowWordNumber t)
  be := 15
  write := true
  data := w

/-- An access that is the given command; none for the rows that are no window access. -/
def encodeAccess (i : Instr) : Option BusAccess :=
  match i with
  | .stagingWrite a k w => some (writeTo (.aperture a (.staging k)) w)
  | .ringConsumed a w => some (writeTo (.aperture a .ringConsumed) w)
  | .notifyPending a w => some (writeTo (.aperture a .notifyPending) w)
  | .notifyEnable a w => some (writeTo (.aperture a .notifyEnable) w)
  | .notifyDisarm a w => some (writeTo (.aperture a .notifyDisarm) w)
  | .notifyLevels a w => some (writeTo (.aperture a .notifyLevels) w)
  | .vectorBase a w => some (writeTo (.aperture a .vectorBase) w)
  | .ack a => some { writeTo (.aperture a .ack) 0 with write := false }
  | .endService a w => some (writeTo (.aperture a .endService) w)
  | .confirmHeadWrite a w => some (writeTo (.aperture a .confirmHead) w)
  | .faultRecordWrite a w => some (writeTo (.aperture a .faultRecord) w)
  | .waitLimits a w => some (writeTo (.aperture a .waitLimits) w)
  | .registerWrite t w => some (writeTo t w)
  | .partialOrUnmappedAccess off be write => some { off, be, write, data := 0 }
  | i => (encodeCommand i).map fun x => writeTo (.aperture x.1 .command) x.2

end Sys2Proof
end

