-- ==== Sys2Proof/Config.lean ====
section
/-! DEFINITION. What is fixed for the machine: the sizes the spec gives, the one value it leaves to the board, and the one
order it leaves free. -/

namespace Sys2Proof.Config

/-- Words in a cell (R5). -/
def cellWords : Nat := 8

/-- Longest payload in words (R3, R5). -/
def maxLength : Nat := 64

/-- Entries a confirmation list holds (R88). -/
def confirmCapacity : Nat := 16

/-- Bytes in a ring slot: 66 words (R119). -/
def slotBytes : Nat := 264

/-- Queue limit after RESET and ATTACH (R60). -/
def resetQueueLimit : Fin 256 := 32

/-- Vector base after RESET and ATTACH (R140, Table 8-1). -/
def resetVectorBase : BitVec 8 := 0x40

/-- TICK_DIV after RESET (R184). -/
def resetTickDiv : Nat := 1000

/-- Smallest and largest TICK_DIV (R184, R185). -/
def minTickDiv : Nat := 16
/-- Largest TICK_DIV (R184, R185). -/
def maxTickDiv : Nat := 65535

/-- DESIGN CHOICE (unsafe, log entry 2): the strap SUPV[2:0] as `State.reset` has it. The spec leaves it to the board
(R162); the command RESET carries the strap it samples. -/
def resetSupervisor : StationId := 0

/-- DESIGN CHOICE (safe, log entry 5): a free value. R184 lets room-wait expiries of one tick be taken in any order; where
no expiry command gives the order, two or more that are due are taken in this one, which nothing fixes and which may differ
from state to state. A station that is not due is passed over. -/
opaque expiryOrder {σ : Type} : σ → List StationId

end Sys2Proof.Config
end

