-- ==== Sys2Proof/Machine/State.lean ====
section
/-! DEFINITION. The state of the device: every register, list, counter and mode the spec gives it (INVENTORY.md lists
each with its rule), the queue of waiting commands, and the reset state. -/

namespace Sys2Proof.Machine

/-- Nothing in the spec stops the device, so no fault exists: every command answers a next state. -/
inductive Fault where
  deriving DecidableEq, Repr

/-- Reasons to refuse a command. -/
inductive Refusal where
  /-- Raised by `exec` alone, for a row of the table whose meaning is not written. No arm raises it. Safe: the machine
  stops where the device goes on. -/
  | notModelled (mnemonic : String)
  deriving DecidableEq, Repr

/-! ### Names (Tables 10-5, 10-6) -/

/-- Station states (R161). -/
inductive StationState where
  | offline | online | quiescing
  deriving DecidableEq, Repr

/-- Result codes (R189, Table 10-5). -/
inductive ResultCode where
  | ok | pending | busy | notOnline | badCommand | badOperand | notSupervisor | inUse | badChannel | notPermitted
  | destOffline | channelFull | noRoom | empty | holding | notHolding | lockNotOwned | lockPledged | passNotAllowed
  | alreadyHeld | lockBusy | notWaiting | ringMode | ringInvalid
  deriving DecidableEq, Repr

/-- SEND_RESULT outcomes (R55). -/
inductive SendOutcome where
  | none | ok | destOffline | queueFull | timeout | cancelled | closed
  deriving DecidableEq, Repr

/-- Last wait outcomes (R96). -/
inductive WaitOutcome where
  | none | granted | timeout | cancelled
  deriving DecidableEq, Repr

/-- The ends of a message that have an outcome (R81, Table 5-1). -/
inductive EndOutcome where
  | released | delivered | discarded
  deriving DecidableEq, Repr

/-- Message states (R7, Table 1-3). -/
inductive MessageState where
  | filling | queued | delivering | reading
  deriving DecidableEq, Repr

/-- Ring states (R117). -/
inductive RingState where
  | disabled | active | stalled | faulted | disabling
  deriving DecidableEq, Repr

/-- Channel states (R23). -/
inductive ChannelState where
  | closed | opened
  deriving DecidableEq, Repr

/-- Fault codes (R156, Table 8-4). -/
inductive FaultCode where
  | stagingCollision | accessFault | ringBusFault | ringNoResponse | ringRetryExhausted | badConsumed | lockRevoked
  | confirmOverflow
  deriving DecidableEq, Repr

/-- Lock states, each with the field Table 6-2 says is present in it. -/
inductive LockState where
  | free
  | held (owner : StationId)
  | pledged (owner : StationId)
  | carried (carrier : DescId)
  deriving DecidableEq, Repr

/-! ### Records -/

/-- The RESULT word (R163, R189): the latest result code and the command code it answers. -/
structure CommandResult where
  code : ResultCode
  command : BitVec 8
  deriving DecidableEq, Repr

/-- The SEND_RESULT word (R55). -/
structure SendReport where
  outcome : SendOutcome
  sequence : Half
  deriving DecidableEq, Repr

/-- The pending post record (R41, Table 3-2) but for its descriptor, which `SendState.copying` holds. -/
structure Post where
  channel : ChannelId
  length : Nat
  cellsNeeded : Nat
  dest : StationId
  cls : ClassId
  confirm : Bool
  passLock : Option LockId
  tag : Half
  sequence : Half
  deriving DecidableEq, Repr

/-- The send state with the pending post record it keeps (R40, R41): the descriptor is absent in AWAIT_ROOM and present
in COPYING. -/
inductive SendState where
  | idle
  | awaitRoom (p : Post)
  | copying (p : Post) (d : DescId)
  deriving DecidableEq, Repr

/-- The message record (R4, Table 1-2) but for its descriptor, which is its place in `State.messages`. -/
structure Message where
  source : StationId
  channel : ChannelId
  dest : StationId
  cls : ClassId
  length : Nat
  tag : Half
  sequence : Half
  carriedLock : Option LockId
  confirm : Bool
  cells : List CellId
  state : MessageState
  deriving DecidableEq, Repr

/-- A full read slot (R65): the descriptor taken and the read header as it was formed at the take (R69). -/
structure ReadSlot where
  desc : DescId
  header0 : Word
  header1 : Word
  deriving DecidableEq, Repr

/-- A confirmation entry (R86). -/
structure Confirmation where
  channel : ChannelId
  sequence : Half
  outcome : EndOutcome
  deriving DecidableEq, Repr

/-- The lock-wait slot in WAITING (R96): the lock waited for, and the ticks still to come where a timer runs. -/
structure LockWait where
  lock : LockId
  timer : Option Nat
  deriving DecidableEq, Repr

/-- The ring context (R116, Table 7-1). -/
structure Ring where
  base : Word
  slots : Word
  indexAddr : Word
  latchedBase : Word
  latchedSlots : Nat
  latchedIndex : Word
  state : RingState
  produced : Half
  consumed : Half
  deriving DecidableEq, Repr

/-- An in-service entry (R146): the source and the level it had when it was acknowledged. -/
structure ServiceEntry where
  source : SourceId
  level : Nat
  deriving DecidableEq, Repr

/-- A recorded fault (R156). -/
structure FaultRecord where
  code : FaultCode
  detail : Word
  deriving DecidableEq, Repr

/-- Everything the blocks hold for one station. -/
structure StationRec where
  state : StationState
  seqCounter : Half
  roomWaitLimit : Half
  lockWaitLimit : Half
  result : CommandResult
  supOperand : Word
  staging : Vector Word 64
  sendTag : Half
  send : SendState
  sendResult : SendReport
  queues : Vector (List DescId) 4
  limits : Vector (Fin 256) 4
  readSlot : Option ReadSlot
  confirms : List Confirmation
  confirmOverflow : Bool
  wait : Option LockWait
  lastWait : WaitOutcome
  ring : Ring
  pendingFlags : BitVec 8
  enables : BitVec 8
  disarm : BitVec 8
  levels : BitVec 24
  vectorBase : BitVec 8
  inService : List ServiceEntry
  fault : Option FaultRecord
  multiple : Bool
  deriving DecidableEq, Repr

/-- A channel entry (R22, Table 2-1). -/
structure Channel where
  state : ChannelState
  dest : StationId
  cls : ClassId
  mask : BitVec 8
  hold : Bool
  confirm : Bool
  pass : Bool
  limit : Fin 256
  count : Nat
  deriving DecidableEq, Repr

/-- A lock record (R94, Table 6-1). -/
structure LockRecord where
  state : LockState
  waiters : List StationId
  deriving DecidableEq, Repr

/-- A room queue entry (R12). -/
structure RoomEntry where
  station : StationId
  channel : ChannelId
  cellsNeeded : Nat
  timer : Option Nat
  deriving DecidableEq, Repr

/-- The write a delivery makes next (R124, R128). -/
inductive DeliveryWrite where
  | header0
  | header1
  | payload (j : Nat)
  | index
  deriving DecidableEq, Repr

/-- The delivery record (R124). -/
structure Delivery where
  station : StationId
  cls : ClassId
  desc : DescId
  slot : Nat
  header0 : Word
  header1 : Word
  next : DeliveryWrite
  retries : Nat
  deriving DecidableEq, Repr

/-- An open master write cycle (R128, R129, R186): the byte address and the data on the pins, and the ticks still to
come before the response limit expires. -/
structure Cycle where
  addr : Word
  data : Word
  timer : Nat
  deriving DecidableEq, Repr

/-- The engine state (R124) with what it holds: the delivery record in BUS_WAIT and TRANSFER, and in TRANSFER the open
cycle. -/
inductive EngineState where
  | idle
  | busWait (d : Delivery)
  | transfer (d : Delivery) (c : Cycle)
  deriving DecidableEq, Repr

/-- What the device answers on RESP[1:0] as slave (R179). -/
inductive SlaveResponse where
  | complete | fault
  deriving DecidableEq, Repr

/-- The answer to a window access: RESP[1:0], and D[31:0] where the access is a read (R179). -/
structure SlaveAnswer where
  resp : SlaveResponse
  data : Option Word
  deriving DecidableEq, Repr

/-- The state of the device, and the queue of commands that wait for it. -/
structure State where
  /-- The eight stations (Table 1: every block's state for a station). -/
  stations : Vector StationRec 8
  /-- The supervisor number (R162). -/
  supervisor : StationId
  /-- The 64 channel entries (R22). -/
  channels : Vector Channel 64
  /-- The 32 lock records (R94). -/
  locks : Vector LockRecord 32
  /-- The free cell list (R1). -/
  freeCells : List CellId
  /-- The free descriptor list (R2). -/
  freeDescs : List DescId
  /-- The message records of the allocated descriptors (R2, R4). -/
  messages : Vector (Option Message) 256
  /-- The contents of the cells (R5): pairs of word number (8 × cell + word) and word, in the canonical form of
  `CellStore.wf`. -/
  cellStore : List (Nat × Word)
  /-- The room queue, head first (R12). -/
  roomQueue : List RoomEntry
  /-- The engine state with its delivery record (R124). -/
  engine : EngineState
  /-- The gap after a release: BRQ is held deasserted until it ends (R124, R127, log entry 6). -/
  gap : Bool
  /-- The round-robin pointer (R124). -/
  rrPointer : StationId
  /-- The burst count (R124). -/
  burst : Nat
  /-- The response limit in ticks (R136). -/
  responseLimit : Nat
  /-- The retry budget (R136). -/
  retryBudget : Nat
  /-- The burst limit (R136). -/
  burstLimit : Nat
  /-- TICK_DIV (R184). -/
  tickDiv : Nat
  /-- The tick counter (R184). -/
  tickCount : Nat
  /-- The answer to the latest window access; none where it drew no response (R178, R179, log entry 8). -/
  answer : Option SlaveAnswer
  /-- The model's own: the commands that wait, first in first out (log entry 17). -/
  pending : List Instr
  deriving DecidableEq, Repr

/-! ### Reset -/

/-- The ring context after RESET (R116, Table 7-1). -/
def Ring.reset : Ring where
  base := 0
  slots := 0
  indexAddr := 0
  latchedBase := 0
  latchedSlots := 0
  latchedIndex := 0
  state := .disabled
  produced := 0
  consumed := 0

/-- A station after RESET (R37, R39, R40, R55, R59, R60, R65, R88, R96, R116, R140, R160, R163, R165). -/
def StationRec.reset : StationRec where
  state := .offline
  seqCounter := 0
  roomWaitLimit := 0
  lockWaitLimit := 0
  result := { code := .ok, command := 0 }
  supOperand := 0
  staging := Vector.replicate 64 0
  sendTag := 0
  send := .idle
  sendResult := { outcome := .none, sequence := 0 }
  queues := Vector.replicate 4 []
  limits := Vector.replicate 4 Config.resetQueueLimit
  readSlot := none
  confirms := []
  confirmOverflow := false
  wait := none
  lastWait := .none
  ring := Ring.reset
  pendingFlags := 0
  enables := 0
  disarm := 0
  levels := 0
  vectorBase := Config.resetVectorBase
  inService := []
  fault := none
  multiple := false

/-- A channel entry after RESET (R22, Table 2-1). -/
def Channel.reset : Channel where
  state := .closed
  dest := 0
  cls := 0
  mask := 0
  hold := false
  confirm := false
  pass := false
  limit := 1
  count := 0

/-- The machine right after RESET (R21, R36, R58, R80, R115, R139, R155, R177, R184). The supervisor number is the
strap of `Config.resetSupervisor` (log entry 2); no cell word is listed (log entry 7). -/
def State.reset : State where
  stations := Vector.replicate 8 StationRec.reset
  supervisor := Config.resetSupervisor
  channels := Vector.replicate 64 Channel.reset
  locks := Vector.replicate 32 { state := .free, waiters := [] }
  freeCells := (List.range 1024).map (Fin.ofNat 1024)
  freeDescs := (List.range 256).map (Fin.ofNat 256)
  messages := Vector.replicate 256 none
  cellStore := []
  roomQueue := []
  engine := .idle
  gap := false
  rrPointer := 7
  burst := 0
  responseLimit := 8
  retryBudget := 2
  burstLimit := 1
  tickDiv := Config.resetTickDiv
  tickCount := 0
  answer := none
  pending := []

end Sys2Proof.Machine
end

