-- ==== Sys2Proof/Machine/Access.lean ====
section
/-! DEFINITION. Reading and updating the tables of State, and the cell store with its canonical form. -/

namespace Sys2Proof.Machine

/-! ### Tables -/

/-- Station `a`. -/
def State.st (s : State) (a : StationId) : StationRec := entry s.stations a

/-- Station `a` passed through `f`. -/
def State.modSt (s : State) (a : StationId) (f : StationRec → StationRec) : State :=
  { s with stations := put s.stations a (f (s.st a)) }

/-- Channel entry `c`. -/
def State.chan (s : State) (c : ChannelId) : Channel := entry s.channels c

/-- Channel entry `c` passed through `f`. -/
def State.modChan (s : State) (c : ChannelId) (f : Channel → Channel) : State :=
  { s with channels := put s.channels c (f (s.chan c)) }

/-- Lock record `l`. -/
def State.lock (s : State) (l : LockId) : LockRecord := entry s.locks l

/-- Lock record `l` replaced. -/
def State.setLock (s : State) (l : LockId) (r : LockRecord) : State := { s with locks := put s.locks l r }

/-- The message record of descriptor `d`; none while the descriptor is free (R2). -/
def State.msg (s : State) (d : DescId) : Option Message := entry s.messages d

/-- The record of descriptor `d` replaced. -/
def State.setMsg (s : State) (d : DescId) (m : Option Message) : State := { s with messages := put s.messages d m }

/-- The class queue `c` of a station, head first (R59). -/
def StationRec.queue (r : StationRec) (c : ClassId) : List DescId := entry r.queues c

/-- A station with class queue `c` replaced. -/
def StationRec.setQueue (r : StationRec) (c : ClassId) (q : List DescId) : StationRec :=
  { r with queues := put r.queues c q }

/-- The limit of class queue `c` (R60). -/
def StationRec.limit (r : StationRec) (c : ClassId) : Fin 256 := entry r.limits c

/-- The four classes, most urgent first. -/
def allClasses : List ClassId := [0, 1, 2, 3]

/-! ### The cell store -/

/-- The cell store: (word number, word) pairs. -/
abbrev CellStore := List (Nat × Word)

/-- What a word no pair lists reads as. DESIGN CHOICE (log entry 7): the spec gives cells no reset contents, and shows a
word of a cell only after a copy has written it. -/
def CellStore.unlisted : Word := 0

/-- The word at word number `k`. -/
def CellStore.read : CellStore → Nat → Word
  | [], _ => CellStore.unlisted
  | (b, w) :: rest, k => if k = b then w else CellStore.read rest k

/-- The pair for word number `k` put before `rest`, or left out where it equals what an unlisted word reads as. -/
def CellStore.cons (k : Nat) (w : Word) (rest : CellStore) : CellStore :=
  if w = CellStore.unlisted then rest else (k, w) :: rest

/-- The store with `w` written at word number `k`, in canonical form again. -/
def CellStore.write : CellStore → Nat → Word → CellStore
  | [], k, w => CellStore.cons k w []
  | (b, v) :: rest, k, w =>
    if k < b then CellStore.cons k w ((b, v) :: rest)
    else if k = b then CellStore.cons k w rest
    else (b, v) :: CellStore.write rest k w

/-- Every word number of the store is above `k`, the numbers strictly rise, and no pair equals what an unlisted word
reads as. -/
def CellStore.wfAbove : Nat → CellStore → Bool
  | _, [] => true
  | k, (b, w) :: rest => decide (k < b) && !(w == CellStore.unlisted) && CellStore.wfAbove b rest

/-- The canonical form of the cell store. -/
def CellStore.wf : CellStore → Bool
  | [] => true
  | (b, w) :: rest => !(w == CellStore.unlisted) && CellStore.wfAbove b rest

/-- Where payload word `j` of a message with these cells lies: word (j mod 8) of cell (j div 8) of the cell list (R5). -/
def payloadPlace (cells : List CellId) (j : Nat) : Option Nat :=
  (cells[j / Config.cellWords]?).map fun c => Config.cellWords * c.val + j % Config.cellWords

/-- Payload word `j` of a message: its content below the length, 0 from the length on (R5, R70). -/
def payloadWord (m : Message) (store : CellStore) (j : Nat) : Word :=
  if j < m.length then
    match payloadPlace m.cells j with
    | some k => CellStore.read store k
    | none => 0
  else 0

/-- One word of the copy: staging word `j` below the length, 0 in the rest of the last cell (R5, R50). -/
def copyWord (cells : List CellId) (length : Nat) (staging : Vector Word 64) (store : CellStore) (j : Nat) : CellStore :=
  match payloadPlace cells j with
  | some k => CellStore.write store k (if j < length then staging.toList.getD j 0 else 0)
  | none => store

/-- The store after the copy of `length` staged words into `cells` (R5, R50). -/
def copyPayload (cells : List CellId) (length : Nat) (staging : Vector Word 64) (store : CellStore) : CellStore :=
  (List.range (Config.cellWords * cells.length)).foldl (copyWord cells length staging) store

end Sys2Proof.Machine
end

