-- ==== Sys2Proof/Machine/Flags.lean ====
section
/-! DEFINITION. The notification flags: setting a source, eligibility, the notify line, the choice and vector of an
acknowledge, and the recording of a fault (chapter 8). -/

namespace Sys2Proof.Machine

/-- Source 4, LOCK (Table 8-2). -/
def srcLock : SourceId := 4
/-- Source 5, SENT. -/
def srcSent : SourceId := 5
/-- Source 6, CONFIRMED. -/
def srcConfirmed : SourceId := 6
/-- Source 7, ALERT. -/
def srcAlert : SourceId := 7
/-- Sources 0 to 3, ARRIVE0 to ARRIVE3. -/
def srcArrive (c : ClassId) : SourceId := ⟨c.val, by omega⟩

/-- The eight sources, in ascending order. -/
def allSources : List SourceId := [0, 1, 2, 3, 4, 5, 6, 7]

/-- The mask with bit `n` set. -/
def sourceBit (n : SourceId) : BitVec 8 := 1#8 <<< n.val

/-- A block sets source `n` of station `a`: the pending flag is set if the station is ONLINE, and the set is dropped
otherwise (R141). -/
def setSource (a : StationId) (n : SourceId) (s : State) : State :=
  s.modSt a fun r => if r.state = .online then { r with pendingFlags := r.pendingFlags ||| sourceBit n } else r

/-- A fault is handed over for station `a` (R157). -/
def recordFault (a : StationId) (code : FaultCode) (detail : Word) (s : State) : State :=
  setSource a srcAlert
    (s.modSt a fun r => { r with fault := some { code, detail }, multiple := r.multiple || r.fault.isSome })

/-- The level of source `n` (R143: bits 3n + 2 to 3n of NOTIFY_LEVELS). -/
def StationRec.level (r : StationRec) (n : SourceId) : Nat := r.levels.toNat / 2 ^ (3 * n.val) % 8

/-- The top level: the level of the newest in-service entry, or 0 (R144). -/
def StationRec.topLevel (r : StationRec) : Nat :=
  match r.inService.getLast? with
  | some e => e.level
  | none => 0

/-- Source `n` has an entry in the in-service list. -/
def StationRec.serving (r : StationRec) (n : SourceId) : Bool := r.inService.any fun e => e.source == n

/-- Source `n` of the station is eligible (R144). -/
def StationRec.eligible (r : StationRec) (n : SourceId) : Bool :=
  decide (r.state = .online) && r.pendingFlags.getLsbD n.val && r.enables.getLsbD n.val && decide (1 ≤ r.level n)
    && decide (r.topLevel < r.level n) && !r.serving n

/-- The notify line NTF[s]: asserted while at least one source is eligible (R144, R145). -/
def StationRec.ntf (r : StationRec) : Bool := allSources.any r.eligible

/-- The more urgent of a choice so far and source `n`: the higher level, and the source already chosen at equal level. -/
def StationRec.moreUrgent (r : StationRec) (best : Option SourceId) (n : SourceId) : Option SourceId :=
  if r.eligible n then
    match best with
    | some b => if r.level b < r.level n then some n else some b
    | none => some n
  else best

/-- The source an acknowledge chooses: of the eligible ones the highest level, then the lowest number (R147). -/
def StationRec.chosenSource (r : StationRec) : Option SourceId := allSources.foldl r.moreUrgent none

/-- The vector of source `n`: the vector base with its bits 2 to 0 replaced by `n` (R149). -/
def StationRec.vector (r : StationRec) (n : SourceId) : Nat := r.vectorBase.toNat / 8 * 8 + n.val

/-- The word an acknowledge of source `n` returns (R147, Table 10-8). -/
def StationRec.ackWord (r : StationRec) (n : SourceId) : Word :=
  pack [(31, 1), (12, r.level n), (8, n.val), (0, r.vector n)]

/-- The station after the acknowledge of source `n` (R147). -/
def StationRec.acknowledge (r : StationRec) (n : SourceId) : StationRec :=
  { r with
    pendingFlags := r.pendingFlags &&& ~~~ sourceBit n
    inService := r.inService ++ [{ source := n, level := r.level n }]
    enables := if r.disarm.getLsbD n.val then r.enables &&& ~~~ sourceBit n else r.enables }

/-- The pending flags are cleared and the in-service list emptied at the entry to QUIESCING (R153). -/
def StationRec.silence (r : StationRec) : StationRec := { r with pendingFlags := 0, inService := [] }

end Sys2Proof.Machine
end

