-- ==== Sys2Proof/Machine/Operands.lean ====
section
/-! DEFINITION. What the device derives from operands and registers: the need of a post, the message header, the ring
setup checks, the fill of a ring, the addresses and data of a delivery's writes, timers. -/

namespace Sys2Proof.Machine

/-- The cell part of the need of a payload of `length` words (R3, Table 1-1). -/
def cellsFor (length : Nat) : Nat := (length + 7) / 8

/-- The need of one descriptor and `cells` cells fits the free counts (R3). -/
def State.fits (s : State) (cells : Nat) : Bool := decide (1 ≤ s.freeDescs.length) && decide (cells ≤ s.freeCells.length)

/-- The timer a wait limit starts: none for a limit of 0 (R12, R96, R174). -/
def startTimer (limit : Half) : Option Nat := if limit = 0 then none else some limit.toNat

/-- A running timer after one more tick (R184); at 0 it is due. -/
def countTick (t : Option Nat) : Option Nat := t.map (· - 1)

/-- Word 0 of the message header (R69, R126, R191, Table 10-7). -/
def headerWord0 (m : Message) : Word :=
  pack [(31, 1), (24, flagValue m.confirm), (19, (m.carriedLock.map (·.val)).getD 0), (18, flagValue m.carriedLock.isSome),
    (12, m.channel.val), (9, m.source.val), (7, m.cls.val), (0, m.length)]

/-- Word 1 of the message header (R69, R191, Table 10-7). -/
def headerWord1 (m : Message) : Word := pack [(16, m.tag.toNat), (0, m.sequence.toNat)]

/-- The slots a ring may have (R118, check 3). -/
def slotCounts : List Nat := [4, 8, 16, 32, 64, 128, 256]

/-- The first byte behind the ring the setup words describe (R118). -/
def Ring.setupEnd (g : Ring) : Nat := g.base.toNat + g.slots.toNat * Config.slotBytes

/-- Checks 2 to 6 of ENABLE_RING (R118). -/
def Ring.setupValid (g : Ring) : Bool :=
  decide (g.base.toNat % 8 = 0) && slotCounts.contains g.slots.toNat && decide (g.setupEnd ≤ 2 ^ 32)
    && decide (g.indexAddr.toNat % 4 = 0)
    && (decide (g.indexAddr.toNat < g.base.toNat) || decide (g.setupEnd ≤ g.indexAddr.toNat))

/-- The fill: (produced − consumed) mod 65536 (R119). -/
def Ring.fill (g : Ring) : Nat := (g.produced - g.consumed).toNat

/-- The state of a ring that follows its fill: STALLED when full, ACTIVE below (R121, R123). -/
def Ring.byFill (g : Ring) : RingState := if g.fill = g.latchedSlots then .stalled else .active

/-- The bound a consumed value is judged by: one less while a delivery for the station is in progress (R120). -/
def Ring.consumedBound (g : Ring) (inProgress : Bool) : Nat := if inProgress then g.latchedSlots - 1 else g.latchedSlots

/-- The byte address of a delivery's next write (R119, R128). -/
def writeAddr (g : Ring) (d : Delivery) : Word :=
  match d.next with
  | .header0 => g.latchedBase + BitVec.ofNat 32 (d.slot * Config.slotBytes)
  | .header1 => g.latchedBase + BitVec.ofNat 32 (d.slot * Config.slotBytes + 4)
  | .payload j => g.latchedBase + BitVec.ofNat 32 (d.slot * Config.slotBytes + 8 + 4 * j)
  | .index => g.latchedIndex

/-- The data of a delivery's next write (R128, R191); `payload` gives the message's payload words. -/
def writeData (g : Ring) (d : Delivery) (payload : Nat → Word) : Word :=
  match d.next with
  | .header0 => d.header0
  | .header1 => d.header1
  | .payload j => payload j
  | .index => BitVec.ofNat 32 (g.produced + 1).toNat

/-- The write after this one for a message of `length` words; none after the index write (R128). -/
def nextWrite (length : Nat) : DeliveryWrite → Option DeliveryWrite
  | .header0 => some .header1
  | .header1 => some (if length = 0 then .index else .payload 0)
  | .payload j => some (if j + 1 < length then .payload (j + 1) else .index)
  | .index => none

/-- The delivery record of an engine state (R124). -/
def EngineState.delivery : EngineState → Option Delivery
  | .idle => none
  | .busWait d => some d
  | .transfer d _ => some d

/-- A delivery is in progress for station `a`: the delivery record names it (R124). -/
def State.delivering (s : State) (a : StationId) : Bool :=
  match s.engine.delivery with
  | some d => d.station == a
  | none => false

/-- BOWN: asserted in TRANSFER alone (R124, R186). -/
def State.bown (s : State) : Bool :=
  match s.engine with
  | .transfer _ _ => true
  | _ => false

/-- BRQ: asserted in TRANSFER, and in BUS_WAIT outside the gap after a release (R124, R186). -/
def State.brq (s : State) : Bool :=
  match s.engine with
  | .idle => false
  | .busWait _ => !s.gap
  | .transfer _ _ => true

/-- What the device drives as master while a cycle of its own is open (R186): A[31:2], D[31:0], BE[3:0], and RW, true for
high, which is a read. STB is asserted with them. -/
structure MasterPins where
  a : BitVec 30
  d : Word
  be : BitVec 4
  rw : Bool
  deriving DecidableEq, Repr

/-- The pins of one write cycle: the word address, the data, all byte enables asserted, RW low (R186). -/
def Cycle.pins (c : Cycle) : MasterPins where
  a := c.addr.extractLsb' 2 30
  d := c.data
  be := 15
  rw := false

/-- The master cycle: open in TRANSFER alone; none means that STB is deasserted and A, D, BE and RW are not driven
(R186). -/
def State.masterCycle (s : State) : Option MasterPins :=
  match s.engine with
  | .transfer _ c => some c.pins
  | _ => none

/-- RESP[1:0] of an answer of the device as slave: 1 COMPLETE, 3 FAULT; the device never answers RETRY (R179, R186). -/
def SlaveResponse.code : SlaveResponse → BitVec 2
  | .complete => 1
  | .fault => 3

/-- RESP[1:0] as the device drives it for the latest access: 0 is no response (R186). -/
def State.resp (s : State) : BitVec 2 :=
  match s.answer with
  | some x => x.resp.code
  | none => 0

/-- The station's most urgent non-empty class (R67, R126). -/
def StationRec.urgentClass (r : StationRec) : Option ClassId :=
  allClasses.find? fun c => !(r.queue c).isEmpty

/-- A station is in COPYING (R171, "copy in flight"). -/
def SendState.isCopying : SendState → Bool
  | .copying _ _ => true
  | _ => false

end Sys2Proof.Machine
end

