-- ==== Sys2Proof/Machine/Ops.lean ====
section
/-! DEFINITION. The operations the commands share: the answer on the bus and the command dispatch, store room and the
room queue, locks, confirmations, the end of a message, the Delivery Engine, and a station's way to OFFLINE.

Where an operation is given a descriptor that holds no message record, or a post that is not pending, it leaves the state
as it is: no run reaches such a state (log entry 11). -/

namespace Sys2Proof.Machine

/-! ### The answer on the bus -/

/-- The access is answered COMPLETE; `data` is what a read drives on D[31:0] (R179). -/
def answerComplete (data : Option Word) (s : State) : State := { s with answer := some { resp := .complete, data } }

/-- The access is answered FAULT; a read drives 0 on D[31:0] (R179, R180). -/
def answerFault (write : Bool) (s : State) : State :=
  { s with answer := some { resp := .fault, data := if write then none else some 0 } }

/-- A window access while BOWN is asserted: the slave side does not answer, and the access has no effect (R178, log
entry 3). -/
def unanswered (s : State) : State := { s with answer := none }

/-- A write access whose effect is `f`, taken unless the device owns the bus (R178, R179). -/
def writeAccess (f : State → State) (s : State) : State :=
  if s.bown then unanswered s else answerComplete none (f s)

/-! ### Command dispatch -/

/-- The result code and the command code are written to RESULT of aperture `a` (R163, R189). -/
def writeResult (a : StationId) (command : BitVec 8) (code : ResultCode) (s : State) : State :=
  s.modSt a fun r => { r with result := { code, command } }

/-- Check 3 of R164 for ATTACH: refused in QUIESCING alone (Table 9-3). -/
def checkAttach (a : StationId) (s : State) : Option ResultCode :=
  if (s.st a).state = .quiescing then some .notOnline else none

/-- Check 3 of R164 for every other station command (Table 9-3). -/
def checkStation (a : StationId) (s : State) : Option ResultCode :=
  if (s.st a).state = .online then none else some .notOnline

/-- Checks 2 and 3 of R164 for a supervisor command. -/
def checkSupervisor (a : StationId) (s : State) : Option ResultCode :=
  if a ≠ s.supervisor then some .notSupervisor else checkStation a s

/-- A COMMAND write of aperture `a` (R163, R164): `check` is the dispatch check, `body` the owning block's judgement,
which gives the state after its effects and the result code. A refused command changes nothing but RESULT. -/
def runCommand (a : StationId) (command : BitVec 8) (check : State → Option ResultCode)
    (body : State → State × ResultCode) (s : State) : State :=
  writeAccess (fun s =>
    match check s with
    | some refusal => writeResult a command refusal s
    | none => writeResult a command (body s).2 (body s).1) s

/-! ### Locks -/

/-- The lock wait of station `w` ends with outcome `o`: the slot becomes NONE, its timer is discarded (R96). -/
def endWait (w : StationId) (o : WaitOutcome) (s : State) : State :=
  s.modSt w fun r => { r with wait := none, lastWait := o }

/-- A handoff that looks at these entries of `l`'s waiter list, head first (R101): the first ONLINE one gets the lock and
its wait ends GRANTED (R102), the ones before it are dropped, and with none the lock becomes FREE. -/
def handoffAmong (l : LockId) : List StationId → State → State
  | [], s => s.setLock l { state := .free, waiters := [] }
  | w :: rest, s =>
    if (s.st w).state = .online then
      setSource w srcLock (endWait w .granted (s.setLock l { state := .held w, waiters := rest }))
    else handoffAmong l rest (endWait w .cancelled s)

/-- The handoff of lock `l` (R101). -/
def handoff (l : LockId) (s : State) : State := handoffAmong l (s.lock l).waiters s

/-- Lock `l` is passed to receiver `r` (R109): HELD by `r`, and a wait of `r` on it ends GRANTED wherever `r` stands in the
list (R102). -/
def passLock (l : LockId) (r : StationId) (s : State) : State :=
  if (s.st r).wait.map (·.lock) = some l then
    setSource r srcLock
      (endWait r .granted (s.setLock l { state := .held r, waiters := (s.lock l).waiters.erase r }))
  else s.setLock l { state := .held r, waiters := (s.lock l).waiters }

/-- The carried lock of a message, where it has one, is passed to `r`. -/
def passCarried (carried : Option LockId) (r : StationId) (s : State) : State :=
  match carried with
  | some l => passLock l r s
  | none => s

/-- The state of lock `l` changes and its waiter list stays (R106, R107, R108). -/
def setLockState (l : Option LockId) (st : LockState) (s : State) : State :=
  match l with
  | some l => s.setLock l { state := st, waiters := (s.lock l).waiters }
  | none => s

/-- The lock wait of station `a`, where it has one, ends with outcome `o` and the station leaves the waiter list; the lock
is otherwise unchanged (R100, R103, R112). -/
def leaveWait (a : StationId) (o : WaitOutcome) (s : State) : State :=
  match (s.st a).wait with
  | some w =>
    endWait a o (s.setLock w.lock { state := (s.lock w.lock).state, waiters := (s.lock w.lock).waiters.erase a })
  | none => s

/-- Lock `l` is handed off if it is HELD by station `a` (R113). -/
def releaseIfHeld (a : StationId) (s : State) (l : LockId) : State :=
  if (s.lock l).state = .held a then handoff l s else s

/-- Every lock HELD by station `a` is handed off, in ascending lock number (R113). -/
def releaseHoldings (a : StationId) (s : State) : State := (List.finRange 32).foldl (releaseIfHeld a) s

/-! ### Store room and the room queue -/

/-- Allocation for the post `p` of station `a` (R10): a descriptor and cells leave the heads of their lists, a FILLING
record is built from the post (R4), and the post is COPYING (R14, R44). -/
def allocate (a : StationId) (p : Post) (s : State) : State :=
  match s.freeDescs with
  | [] => s
  | d :: rest =>
    { s with
      freeDescs := rest
      freeCells := s.freeCells.drop p.cellsNeeded
      messages := put s.messages d (some
        { source := a, channel := p.channel, dest := p.dest, cls := p.cls, length := p.length, tag := p.tag
          sequence := p.sequence, carriedLock := p.passLock, confirm := p.confirm
          cells := s.freeCells.take p.cellsNeeded, state := .filling })
      stations := put s.stations a { s.st a with send := .copying p d } }

/-- The grant of room queue entry `e`, which has left the list (R14, R47). -/
def grant (e : RoomEntry) (s : State) : State :=
  match (s.st e.station).send with
  | .awaitRoom p => allocate e.station p s
  | _ => s

/-- The examination of the room queue, which holds these entries, and its cascade (R13). -/
def examineAmong : List RoomEntry → State → State
  | [], s => { s with roomQueue := [] }
  | e :: rest, s =>
    if s.fits e.cellsNeeded then examineAmong rest (grant e { s with roomQueue := rest })
    else { s with roomQueue := e :: rest }

/-- The head of the room queue is examined (R13). -/
def examine (s : State) : State := examineAmong s.roomQueue s

/-- The outstanding count of channel `c` falls by 1 (R30). -/
def releaseCount (c : ChannelId) (s : State) : State := s.modChan c fun e => { e with count := e.count - 1 }

/-- The post of station `a` ends: SEND_RESULT takes its outcome, the record is discarded, the send state is IDLE. -/
def endPost (a : StationId) (p : Post) (o : SendOutcome) (s : State) : State :=
  s.modSt a fun r => { r with send := .idle, sendResult := { outcome := o, sequence := p.sequence } }

/-- The room wait of station `a` ends without a grant, its entry being out of the room queue (R48): count, pledge,
SEND_RESULT, and SENT where `sent` says the cause sets it. -/
def endRoomWait (a : StationId) (o : SendOutcome) (sent : Bool) (s : State) : State :=
  match (s.st a).send with
  | .awaitRoom p =>
    let t := endPost a p o (setLockState p.passLock (.held a) (releaseCount p.channel s))
    if sent then setSource a srcSent t else t
  | _ => s

/-- The entries of `gone` end with outcome `o`, in list order (R17). -/
def endRoomWaits (gone : List RoomEntry) (o : SendOutcome) (sent : Bool) (s : State) : State :=
  gone.foldl (fun t e => endRoomWait e.station o sent t) s

/-- The room queue entries that meet `p` are removed in list order, their posts end with outcome `o`, and the new head is
examined once if the head was among them (R13, R15 to R18). -/
def removeWaiting (p : RoomEntry → Bool) (o : SendOutcome) (sent : Bool) (s : State) : State :=
  let t := endRoomWaits (s.roomQueue.filter p) o sent { s with roomQueue := s.roomQueue.filter fun e => !p e }
  if s.roomQueue.head?.any p then examine t else t

/-! ### Confirmations and the end of a message -/

/-- An entry is offered to the confirmation list of station `a` (R88). -/
def offerConfirmation (a : StationId) (e : Confirmation) (s : State) : State :=
  if (s.st a).confirms.length < Config.confirmCapacity then
    setSource a srcConfirmed (s.modSt a fun r => { r with confirms := r.confirms ++ [e] })
  else
    recordFault a .confirmOverflow (BitVec.ofNat 32 e.channel.val)
      (s.modSt a fun r => { r with confirmOverflow := true })

/-- Step 1 of a message's end: the carried lock (R82, R83, Table 5-2). -/
def disposeLock (o : EndOutcome) (m : Message) (s : State) : State :=
  match o, m.carriedLock with
  | .delivered, some l => passLock l m.dest s
  | .discarded, some l => handoff l s
  | _, _ => s

/-- Step 2: a confirmation is made when the confirm field is yes and the source is ONLINE (R86). -/
def confirmEnd (o : EndOutcome) (m : Message) (s : State) : State :=
  if m.confirm && decide ((s.st m.source).state = .online) then
    offerConfirmation m.source { channel := m.channel, sequence := m.sequence, outcome := o } s
  else s

/-- Step 4: the message is freed and the room queue head is examined (R11, R85). -/
def freeMessage (d : DescId) (m : Message) (s : State) : State :=
  examine { s with
    freeDescs := s.freeDescs ++ [d]
    freeCells := s.freeCells ++ m.cells
    messages := put s.messages d none }

/-- The message of descriptor `d` ends with outcome `o`, in the four steps of R82. -/
def endMessage (o : EndOutcome) (d : DescId) (s : State) : State :=
  match s.msg d with
  | some m => freeMessage d m (releaseCount m.channel (confirmEnd o m (disposeLock o m s)))
  | none => s

/-- The message of descriptor `d` is freed as a failed enqueue: the lock returns to the sender, no confirmation, then the
count and the room (R53, R83, R93). -/
def endFailedEnqueue (d : DescId) (s : State) : State :=
  match s.msg d with
  | some m => freeMessage d m (releaseCount m.channel (setLockState m.carriedLock (.held m.source) s))
  | none => s

/-! ### Queues -/

/-- The message of descriptor `d` moves to state `st`. -/
def setMessageState (d : DescId) (st : MessageState) (s : State) : State :=
  match s.msg d with
  | some m => s.setMsg d (some { m with state := st })
  | none => s

/-- ARRIVEc of station `a` is set if class queue `c` is non-empty (R64). -/
def announceClass (a : StationId) (s : State) (c : ClassId) : State :=
  if ((s.st a).queue c).isEmpty then s else setSource a (srcArrive c) s

/-- The ARRIVE source of each non-empty class of station `a` is set (R64). -/
def announceQueues (a : StationId) (s : State) : State := allClasses.foldl (announceClass a) s

/-- The head of queue `c` of station `a`, descriptor `d`, is taken into the read slot (R68): the header is formed from the
record as it stands, then a carried lock passes to the station. -/
def takeHead (a : StationId) (c : ClassId) (d : DescId) (s : State) : State :=
  match s.msg d with
  | some m =>
    passCarried m.carriedLock a
      ((s.modSt a fun r =>
        { r.setQueue c (r.queue c).tail with
          readSlot := some { desc := d, header0 := headerWord0 m, header1 := headerWord1 m } }).setMsg d
        (some { m with state := .reading, carriedLock := none }))
  | none => s

/-- The message of descriptor `d`, record `m`, is appended QUEUED to its class queue; ARRIVEc is set in window mode
(R62, R63). -/
def enqueue (d : DescId) (m : Message) (s : State) : State :=
  let t := (s.modSt m.dest fun r => r.setQueue m.cls (r.queue m.cls ++ [d])).setMsg d (some { m with state := .queued })
  if (s.st m.dest).ring.state = .disabled then setSource m.dest (srcArrive m.cls) t else t

/-! ### The Delivery Engine -/

/-- Station `a` is eligible (R125). -/
def State.eligible (s : State) (a : StationId) : Bool :=
  decide ((s.st a).state = .online) && decide ((s.st a).ring.state = .active) && (s.st a).urgentClass.isSome

/-- The stations in the order of the round-robin search: p + 1 to p + 8, mod 8 (R126). -/
def searchOrder (p : StationId) : List StationId := [p + 1, p + 2, p + 3, p + 4, p + 5, p + 6, p + 7, p]

/-- The delivery record formed for station `a` at a start (R126): the head of its most urgent non-empty class, the slot
produced mod S, the header words from the message record, retry count 0. -/
def State.formDelivery (s : State) (a : StationId) : Option Delivery :=
  match (s.st a).urgentClass with
  | none => none
  | some c =>
    match (s.st a).queue c with
    | [] => none
    | d :: _ =>
      match s.msg d with
      | none => none
      | some m =>
        some
          { station := a, cls := c, desc := d, slot := (s.st a).ring.produced.toNat % (s.st a).ring.latchedSlots
            header0 := headerWord0 m, header1 := headerWord1 m, next := .header0, retries := 0 }

/-- The delivery the engine would start: for the first eligible station behind the round-robin pointer (R126). -/
def State.nextDelivery (s : State) : Option Delivery :=
  match (searchOrder s.rrPointer).find? s.eligible with
  | some a => s.formDelivery a
  | none => none

/-- The message becomes DELIVERING and the round-robin pointer becomes the station chosen (R126). -/
def adoptDelivery (d : Delivery) (s : State) : State :=
  { setMessageState d.desc .delivering s with rrPointer := d.station }

/-- The engine starts a delivery if it is IDLE and a station is eligible (R125), and enters BUS_WAIT. BRQ is asserted with
it, or at the end of the gap that a release has begun (R127). -/
def startIfIdle (s : State) : State :=
  match s.engine, s.nextDelivery with
  | .idle, some d => { adoptDelivery d s with engine := .busWait d }
  | _, _ => s

/-- The engine, owning the bus, issues the write the record names next; its response timer starts with the response limit
in force (R128, R129). -/
def issueWrite (d : Delivery) (s : State) : State :=
  { s with
    engine := .transfer d
      { addr := writeAddr (s.st d.station).ring d
        data := writeData (s.st d.station).ring d fun j =>
          match s.msg d.desc with
          | some m => payloadWord m s.cellStore j
          | none => 0
        timer := s.responseLimit } }

/-- The bus is released, or a request dropped, to IDLE: BRQ is deasserted and the gap begins. The next delivery starts
within the event if a station is eligible (R125, R127, R131, R133, R134). -/
def releaseToIdle (s : State) : State := startIfIdle { s with engine := .idle, gap := true }

/-- The ring of station `a` becomes DISABLED, and at an ONLINE station the ARRIVE sources of the non-empty classes are set
(R64, R122). -/
def disableRing (a : StationId) (s : State) : State :=
  announceQueues a (s.modSt a fun r => { r with ring := { r.ring with state := .disabled } })

/-- A delivery faults (R131): the message is QUEUED again, the ring FAULTED (or DISABLED from DISABLING), the fault
recorded, the bus released. -/
def faultDelivery (d : Delivery) (code : FaultCode) (addr : Word) (s : State) : State :=
  let t := setMessageState d.desc .queued s
  let u :=
    if (t.st d.station).ring.state = .disabling then disableRing d.station t
    else t.modSt d.station fun r => { r with ring := { r.ring with state := .faulted } }
  releaseToIdle (recordFault d.station code addr u)

/-- The produced count advances by 1 mod 65536 and the delivered message leaves the head of its queue (R132). -/
def advanceRing (d : Delivery) (s : State) : State :=
  s.modSt d.station fun r =>
    { r.setQueue d.cls (r.queue d.cls).tail with ring := { r.ring with produced := r.ring.produced + 1 } }

/-- The ring of station `a` after a delivery for it: an ACTIVE ring follows its fill, a DISABLING one becomes DISABLED
(R132, R122). -/
def settleRing (a : StationId) (s : State) : State :=
  match (s.st a).ring.state with
  | .active => s.modSt a fun r => { r with ring := { r.ring with state := r.ring.byFill } }
  | .disabling => disableRing a s
  | _ => s

/-- The engine, owning the bus, goes on to the next delivery if a station is eligible, and releases the bus otherwise
(R133). -/
def continueBurst (s : State) : State :=
  match s.nextDelivery with
  | some next => issueWrite next (adoptDelivery next s)
  | none => releaseToIdle s

/-- The burst count advances; below the burst limit in force the burst may continue, at the limit the bus is released
(R133). -/
def advanceBurst (s : State) : State :=
  if s.burst + 1 < s.burstLimit then continueBurst { s with burst := s.burst + 1 }
  else releaseToIdle { s with burst := s.burst + 1 }

/-- A delivery completes (R132): the produced count advances, the head leaves its queue, the message ends DELIVERED,
ARRIVEc is set, the ring follows its fill or leaves DISABLING, and the burst continues or ends (R133). -/
def completeDelivery (d : Delivery) (s : State) : State :=
  advanceBurst (settleRing d.station
    (setSource d.station (srcArrive d.cls) (endMessage .delivered d.desc (advanceRing d s))))

/-- A delivery for station `a` that waits in BUS_WAIT is abandoned (R134): the message is QUEUED again, a DISABLING ring
becomes DISABLED with no ARRIVE source, the request is dropped. In TRANSFER no command reaches the device (R178). -/
def abandonDelivery (a : StationId) (s : State) : State :=
  match s.engine with
  | .busWait d =>
    if d.station = a then
      releaseToIdle ((setMessageState d.desc .queued s).modSt a fun r =>
        if r.ring.state = .disabling then { r with ring := { r.ring with state := .disabled } } else r)
    else s
  | _ => s

/-! ### A station's way to OFFLINE -/

/-- The messages a station holds, in the order of its purge: classes 0 to 3 head to tail, then the read slot (R77). -/
def StationRec.heldMessages (r : StationRec) : List DescId :=
  r.queue 0 ++ r.queue 1 ++ r.queue 2 ++ r.queue 3 ++ (r.readSlot.map (·.desc)).toList

/-- The messages of these descriptors end DISCARDED, each in full before the next is taken up (R77). -/
def discardAll (ds : List DescId) (s : State) : State := ds.foldl (fun t d => endMessage .discarded d t) s

/-- The purge of station `a` (R77): its queues and read slot are emptied, and their messages end DISCARDED. -/
def purge (a : StationId) (s : State) : State :=
  discardAll (s.st a).heldMessages
    (s.modSt a fun r => { r with queues := Vector.replicate 4 [], readSlot := none })

/-- OFFLINE entry of station `a` (R172): the state, then the purge, the release of its locks, and the ring and confirmation
list. -/
def enterOffline (a : StationId) (s : State) : State :=
  (releaseHoldings a (purge a (s.modSt a fun r => { r with state := .offline }))).modSt a fun r =>
    { r with ring := { r.ring with state := .disabled }, confirms := [], confirmOverflow := false }

/-- The quiescence event, where it has come for station `a`: QUIESCING with no copy in flight and no delivery held (R171,
R172). -/
def quiesce (a : StationId) (s : State) : State :=
  if (s.st a).state = .quiescing ∧ (s.st a).send.isCopying = false ∧ s.delivering a = false then enterOffline a s else s

/-- Entry of station `a` to QUIESCING with the responses of the blocks (R170), and quiescence where neither condition holds
(R168, R171). -/
def enterQuiescing (a : StationId) (s : State) : State :=
  let t := s.modSt a fun r => { r with state := .quiescing }
  let u := removeWaiting (fun e => e.station == a) .cancelled false t
  let v := abandonDelivery a (leaveWait a .cancelled u)
  quiesce a (v.modSt a StationRec.silence)

end Sys2Proof.Machine
end

