-- ==== Sys2Proof/Machine/Channels.lean ====
section
/-! DEFINITION. Meanings of OPEN_CHANNEL and CLOSE_CHANNEL (chapter 2). -/

namespace Sys2Proof.Machine

/-- OPEN_CHANNEL (R24, R25): the sender mask is read from SUP_OPERAND of the supervisor's aperture. -/
def execOpenChannel (a : StationId) (ch : ChannelId) (dest : StationId) (c : ClassId) (hold confirm pass : Bool)
    (limit : Fin 256) (s : State) : Host.Outcome State Fault Refusal :=
  .next (runCommand a 0x20 (checkSupervisor a) (fun s =>
    if limit = 0 then (s, .badOperand)
    else if 255 < (s.st a).supOperand.toNat then (s, .badOperand)
    else if (s.chan ch).state = .opened then (s, .inUse)
    else if (s.chan ch).count ≠ 0 then (s, .inUse)
    else
      (s.modChan ch fun e =>
        { state := .opened, dest, cls := c, mask := (s.st a).supOperand.setWidth 8, hold, confirm, pass, limit
          count := e.count }, .ok)) s)

/-- CLOSE_CHANNEL (R26, R27, R17). -/
def execCloseChannel (a : StationId) (ch : ChannelId) (s : State) : Host.Outcome State Fault Refusal :=
  .next (runCommand a 0x21 (checkSupervisor a) (fun s =>
    if (s.chan ch).state = .closed then (s, .badChannel)
    else
      (removeWaiting (fun e => e.channel == ch) .closed true (s.modChan ch fun e => { e with state := .closed }), .ok)) s)

end Sys2Proof.Machine
end

