-- ==== Sys2Proof/Machine/Engine.lean ====
section
/-! DEFINITION. Meanings of SET_ENGINE and of the bus events BUS_GRANT, BRQ_REASSERT, RESP_COMPLETE, RESP_RETRY, RESP_FAULT and RESPONSE_LIMIT_EXPIRY (chapter 7). -/

namespace Sys2Proof.Machine

/-- SET_ENGINE (R136): the three values are replaced together. -/
def execSetEngine (a : StationId) (response : Fin 256) (retry : Fin 8) (burst : Fin 32) (s : State) :
    Host.Outcome State Fault Refusal :=
  .next (runCommand a 0x25 (checkSupervisor a) (fun s =>
    if response = 0 then (s, .badOperand)
    else if burst = 0 ∨ 16 < burst.val then (s, .badOperand)
    else ({ s with responseLimit := response.val, retryBudget := retry.val, burstLimit := burst.val }, .ok)) s)

/-- BUS_GRANT (R127): taken in BUS_WAIT with BRQ asserted. BGR is not sampled in any other state, nor in the gap. -/
def execBusGrant (s : State) : Host.Outcome State Fault Refusal :=
  match s.engine with
  | .busWait d => if s.gap then .next s else .next (issueWrite d { s with burst := 0 })
  | _ => .next s

/-- BRQ_REASSERT (R127): the gap after a release ends. A delivery in BUS_WAIT has BRQ asserted from now on, and one started
later has it asserted at once (log entry 6). -/
def execBrqReassert (s : State) : Host.Outcome State Fault Refusal := .next { s with gap := false }

/-- The length of the message a delivery record names. -/
def deliveryLength (d : Delivery) (s : State) : Nat :=
  match s.msg d.desc with
  | some m => m.length
  | none => 0

/-- RESP_COMPLETE (R128, R132): the next write is issued, or after the index write the delivery completes. With no cycle
open RESP is ignored (R129). -/
def execRespComplete (s : State) : Host.Outcome State Fault Refusal :=
  match s.engine with
  | .transfer d _ =>
    match nextWrite (deliveryLength d s) d.next with
    | some w => .next (issueWrite { d with next := w } s)
    | none => .next (completeDelivery d s)
  | _ => .next s

/-- RESP_RETRY (R130): the engine releases the bus to reissue the write later, or the delivery faults
RING_RETRY_EXHAUSTED. -/
def execRespRetry (s : State) : Host.Outcome State Fault Refusal :=
  match s.engine with
  | .transfer d c =>
    if s.retryBudget < d.retries + 1 then .next (faultDelivery d .ringRetryExhausted c.addr s)
    else .next { s with engine := .busWait { d with retries := d.retries + 1 }, gap := true }
  | _ => .next s

/-- RESP_FAULT (R129, R131). -/
def execRespFault (s : State) : Host.Outcome State Fault Refusal :=
  match s.engine with
  | .transfer d c => .next (faultDelivery d .ringBusFault c.addr s)
  | _ => .next s

/-- The expiry of the open cycle's response timer, where it is due (R129, R131): the cycle is ended and the delivery faults
RING_NO_RESPONSE. -/
def expireResponse (s : State) : State :=
  match s.engine with
  | .transfer d c => if c.timer = 0 then faultDelivery d .ringNoResponse c.addr s else s
  | _ => s

/-- RESPONSE_LIMIT_EXPIRY (R129, R131). An expiry that is not due does not come (log entry 5). -/
def execResponseLimitExpiry (s : State) : Host.Outcome State Fault Refusal := .next (expireResponse s)

end Sys2Proof.Machine
end

