-- ==== Sys2Proof/Machine/Locking.lean ====
section
/-! DEFINITION. Meanings of ACQUIRE, TRY_LOCK, RELEASE_LOCK, CANCEL_WAIT, FORCE_RELEASE and WAIT_TIMER_EXPIRY (chapter 6). -/

namespace Sys2Proof.Machine

/-- Station `a` owns the lock: HELD or PLEDGED with it as owner (section 6.1). -/
def LockState.ownedBy (st : LockState) (a : StationId) : Bool :=
  match st with
  | .held o => o == a
  | .pledged o => o == a
  | _ => false

/-- Station `a` takes the FREE lock `l` (R97, R98). -/
def takeLock (a : StationId) (l : LockId) (s : State) : State := setLockState (some l) (.held a) s

/-- Station `a` joins the waiter list of `l` and its wait starts, with its timer latched (R96, R97). -/
def joinWaiters (a : StationId) (l : LockId) (s : State) : State :=
  (s.setLock l { state := (s.lock l).state, waiters := (s.lock l).waiters ++ [a] }).modSt a fun r =>
    { r with wait := some { lock := l, timer := startTimer r.lockWaitLimit }, lastWait := .none }

/-- ACQUIRE (R97). -/
def execAcquire (a : StationId) (l : LockId) (s : State) : Host.Outcome State Fault Refusal :=
  .next (runCommand a 0x08 (checkStation a) (fun s =>
    if (s.lock l).state = .free then (takeLock a l s, .ok)
    else if (s.lock l).state.ownedBy a then (s, .alreadyHeld)
    else if (s.st a).wait.isSome then (s, .busy)
    else (joinWaiters a l s, .pending)) s)

/-- TRY_LOCK (R98). -/
def execTryLock (a : StationId) (l : LockId) (s : State) : Host.Outcome State Fault Refusal :=
  .next (runCommand a 0x09 (checkStation a) (fun s =>
    if (s.lock l).state = .free then (takeLock a l s, .ok)
    else if (s.lock l).state.ownedBy a then (s, .alreadyHeld)
    else (s, .lockBusy)) s)

/-- RELEASE_LOCK (R99). -/
def execReleaseLock (a : StationId) (l : LockId) (s : State) : Host.Outcome State Fault Refusal :=
  .next (runCommand a 0x0A (checkStation a) (fun s =>
    if (s.lock l).state = .held a then (handoff l s, .ok)
    else if (s.lock l).state = .pledged a then (s, .lockPledged)
    else (s, .lockNotOwned)) s)

/-- CANCEL_WAIT (R100). -/
def execCancelWait (a : StationId) (s : State) : Host.Outcome State Fault Refusal :=
  .next (runCommand a 0x0B (checkStation a) (fun s =>
    if (s.st a).wait.isSome then (leaveWait a .cancelled s, .ok) else (s, .notWaiting)) s)

/-- FORCE_RELEASE (R111): the fault is handed over before the handoff. -/
def execForceRelease (a : StationId) (l : LockId) (s : State) : Host.Outcome State Fault Refusal :=
  .next (runCommand a 0x23 (checkSupervisor a) (fun s =>
    match (s.lock l).state with
    | .held o => (handoff l (recordFault o .lockRevoked (BitVec.ofNat 32 l.val) s), .ok)
    | .pledged _ => (s, .lockPledged)
    | .carried _ => (s, .lockPledged)
    | .free => (s, .lockNotOwned)) s)

/-- The wait timer of station `a` has reached its last tick (R184). -/
def waitTimerDue (a : StationId) (s : State) : Bool :=
  match (s.st a).wait with
  | some w => w.timer == some 0
  | none => false

/-- The expiry of station `a`'s wait timer, where it is due (R103): the wait ends TIMEOUT and LOCK is set. -/
def expireLockWait (a : StationId) (s : State) : State :=
  if waitTimerDue a s then setSource a srcLock (leaveWait a .timeout s) else s

/-- WAIT_TIMER_EXPIRY of station `a` (R103). An expiry that is not due does not come (log entry 5). -/
def execWaitTimerExpiry (a : StationId) (s : State) : Host.Outcome State Fault Refusal := .next (expireLockWait a s)

end Sys2Proof.Machine
end

