-- ==== Sys2Proof/Machine/Sending.lean ====
section
/-! DEFINITION. Meanings of POST, CANCEL_POST, STAGING_WRITE, COPY_COMPLETION and ROOM_WAIT_TIMER_EXPIRY (chapter 3). -/

namespace Sys2Proof.Machine

/-- The lock part of check 7 of a POST (R43). -/
def checkPassedLock (a : StationId) (l : LockId) (s : State) : Option ResultCode :=
  match (s.lock l).state with
  | .held o => if o = a then none else some .lockNotOwned
  | .pledged o => if o = a then some .lockPledged else some .lockNotOwned
  | .free => some .lockNotOwned
  | .carried _ => some .lockNotOwned

/-- The seven acceptance checks of a POST, in order (R42, Table 3-3); none when all pass. -/
def checkPost (a : StationId) (ch : ChannelId) (len : Fin 128) (pass : Bool) (l : LockId) (s : State) :
    Option ResultCode :=
  if (s.st a).send ≠ .idle then some .busy
  else if Config.maxLength < len.val then some .badOperand
  else if (s.chan ch).state = .closed then some .badChannel
  else if (s.chan ch).mask.getLsbD a.val = false then some .notPermitted
  else if (s.st (s.chan ch).dest).state ≠ .online then some .destOffline
  else if (s.chan ch).limit.val ≤ (s.chan ch).count then some .channelFull
  else if pass = false then none
  else if (s.chan ch).pass = false then some .passNotAllowed
  else checkPassedLock a l s

/-- The pending post record of a POST accepted now (R41, Table 3-2). -/
def postRecord (a : StationId) (ch : ChannelId) (len : Fin 128) (pass : Bool) (l : LockId) (s : State) : Post where
  channel := ch
  length := len.val
  cellsNeeded := cellsFor len.val
  dest := (s.chan ch).dest
  cls := (s.chan ch).cls
  confirm := (s.chan ch).confirm
  passLock := if pass then some l else none
  tag := (s.st a).sendTag
  sequence := (s.st a).seqCounter

/-- What every accepted POST does (R45): the sequence counter, SEND_RESULT, the channel's count (R29) and the pledge
(R106). -/
def acceptPost (a : StationId) (p : Post) (s : State) : State :=
  setLockState p.passLock (.pledged a)
    ((s.modSt a fun r =>
      { r with seqCounter := r.seqCounter + 1, sendResult := { outcome := .none, sequence := p.sequence } }).modChan
      p.channel fun e => { e with count := e.count + 1 })

/-- An accepted post waits: the entry is appended to the room queue with its timer latched (R9, R12). -/
def joinRoomQueue (a : StationId) (p : Post) (s : State) : State :=
  ({ s with
      roomQueue := s.roomQueue ++
        [{ station := a, channel := p.channel, cellsNeeded := p.cellsNeeded
           timer := startTimer (s.st a).roomWaitLimit }] } : State).modSt a fun r => { r with send := .awaitRoom p }

/-- The judgement of a POST (R42 to R45), with the room request of R9. -/
def judgePost (a : StationId) (ch : ChannelId) (len : Fin 128) (pass : Bool) (l : LockId) (s : State) :
    State × ResultCode :=
  match checkPost a ch len pass l s with
  | some refusal => (s, refusal)
  | none =>
    let p := postRecord a ch len pass l s
    if s.roomQueue = [] ∧ s.fits p.cellsNeeded = true then (allocate a p (acceptPost a p s), .ok)
    else if (s.chan ch).hold then (joinRoomQueue a p (acceptPost a p s), .pending)
    else (s, .noRoom)

/-- POST (R42). -/
def execPost (a : StationId) (ch : ChannelId) (len : Fin 128) (pass : Bool) (l : LockId) (s : State) :
    Host.Outcome State Fault Refusal :=
  .next (runCommand a 0x03 (checkStation a) (judgePost a ch len pass l) s)

/-- CANCEL_POST (R49). -/
def execCancelPost (a : StationId) (s : State) : Host.Outcome State Fault Refusal :=
  .next (runCommand a 0x04 (checkStation a) (fun s =>
    match (s.st a).send with
    | .awaitRoom _ => (removeWaiting (fun e => e.station == a) .cancelled false s, .ok)
    | .copying _ _ => (s, .busy)
    | .idle => (s, .notWaiting)) s)

/-- STAGING_WRITE (R37, R38): stored in send state IDLE, in any station state; a collision otherwise. -/
def execStagingWrite (a : StationId) (k : Fin 64) (w : Word) (s : State) : Host.Outcome State Fault Refusal :=
  .next (writeAccess (fun s =>
    match (s.st a).send with
    | .idle => s.modSt a fun r => { r with staging := put r.staging k w }
    | _ => recordFault a .stagingCollision (BitVec.ofNat 32 k.val) s) s)

/-- The late checks of the enqueue attempt (R52); none when both pass. -/
def lateCheck (m : Message) (s : State) : Option SendOutcome :=
  if (s.st m.dest).state ≠ .online then some .destOffline
  else if ((s.st m.dest).limit m.cls).val ≤ ((s.st m.dest).queue m.cls).length then some .queueFull
  else none

/-- The enqueue attempt for the message of descriptor `d`, record `m`, of the post `p` of station `a` (R52, R53): the
message is enqueued and a pledged lock CARRIED (R108), or it is freed; SEND_RESULT, SENT and the send state follow. -/
def attemptEnqueue (a : StationId) (p : Post) (d : DescId) (m : Message) (s : State) : State :=
  match lateCheck m s with
  | none => setSource a srcSent (endPost a p .ok (setLockState m.carriedLock (.carried d) (enqueue d m s)))
  | some failure => setSource a srcSent (endPost a p failure (endFailedEnqueue d s))

/-- COPY_COMPLETION of station `a` (R50, R52): the payload is in the cells, the enqueue is attempted, the engine may start
(R125), and quiescence may follow (R57, R171). With no copy of the station in progress no completion comes (log entry 4). -/
def execCopyCompletion (a : StationId) (s : State) : Host.Outcome State Fault Refusal :=
  match (s.st a).send with
  | .copying p d =>
    match s.msg d with
    | some m =>
      .next (quiesce a (startIfIdle (attemptEnqueue a p d m
        { s with cellStore := copyPayload m.cells m.length (s.st a).staging s.cellStore })))
    | none => .next s
  | _ => .next s

/-- The room-wait timer of station `a`'s entry has reached its last tick (R184). -/
def roomTimerDue (a : StationId) (s : State) : Bool :=
  s.roomQueue.any fun e => e.station == a && e.timer == some 0

/-- The expiry of station `a`'s room-wait timer, where it is due (R15): the post ends TIMEOUT. -/
def expireRoomWait (a : StationId) (s : State) : State :=
  if roomTimerDue a s then removeWaiting (fun e => e.station == a) .timeout true s else s

/-- ROOM_WAIT_TIMER_EXPIRY of station `a` (R15). An expiry that is not due does not come (log entry 5). -/
def execRoomWaitTimerExpiry (a : StationId) (s : State) : Host.Outcome State Fault Refusal := .next (expireRoomWait a s)

end Sys2Proof.Machine
end

