-- ==== Sys2Proof/Machine/Clock.lean ====
section
/-! DEFINITION. Meanings of SET_TICK, TICK and RESET, the timers that expire with a tick, and the CLK period of an idle
step (chapter 10). -/

namespace Sys2Proof.Machine

/-- SET_TICK (R185): TICK_DIV takes SUP_OPERAND and the tick counter starts again. -/
def execSetTick (a : StationId) (s : State) : Host.Outcome State Fault Refusal :=
  .next (runCommand a 0x24 (checkSupervisor a) (fun s =>
    if (s.st a).supOperand.toNat < Config.minTickDiv ∨ Config.maxTickDiv < (s.st a).supOperand.toNat then (s, .badOperand)
    else ({ s with tickDiv := (s.st a).supOperand.toNat, tickCount := 0 }, .ok)) s)

/-- A station after a tick: its lock-wait timer has counted it (R96, R184). -/
def StationRec.ticked (r : StationRec) : StationRec :=
  { r with wait := r.wait.map fun w => { w with timer := countTick w.timer } }

/-- The engine after a tick: the response timer of the open cycle has counted it (R129, R184). -/
def EngineState.ticked : EngineState → EngineState
  | .transfer d c => .transfer d { c with timer := c.timer - 1 }
  | e => e

/-- The counting of a tick (R184): the counter starts again from 0 and every running timer counts it. A timer that reaches
0 is at its n-th tick: it is due, and expires at this tick. -/
def tickAll (s : State) : State :=
  { s with
    tickCount := 0
    stations := mapTable StationRec.ticked s.stations
    roomQueue := s.roomQueue.map fun e => { e with timer := countTick e.timer }
    engine := s.engine.ticked }

/-- The stations whose room-wait timers are due, in the order of the room queue. -/
def dueRoomWaits (s : State) : List StationId := (s.roomQueue.filter fun e => e.timer == some 0).map (·.station)

/-- The order in which due room-wait timers expire where no command gives it: a free one (R184, log entry 5). Every due
station stands in it, and a second visit finds nothing due. -/
def expiryOrder (s : State) : List StationId :=
  if (dueRoomWaits s).length ≤ 1 then dueRoomWaits s else Config.expiryOrder s ++ dueRoomWaits s

/-- The due room-wait timers of these stations expire, one after the other. -/
def expireRoomWaits (order : List StationId) (s : State) : State := order.foldl (fun t a => expireRoomWait a t) s

/-- The due wait timers of these stations expire. -/
def expireLockWaits (order : List StationId) (s : State) : State := order.foldl (fun t a => expireLockWait a t) s

/-- Every timer that is due expires: its n-th tick has come and its expiry has not been taken by a command of its own
(R184). Lock waits and the open cycle need no order, neither among themselves nor with the room queue. -/
def expireDue (s : State) : State :=
  expireResponse (expireLockWaits (List.finRange 8) (expireRoomWaits (expiryOrder s) s))

/-- TICK (R184). A timer still due from an earlier tick has expired before this one. Those that reach their n-th tick now
expire at this tick: by the expiry commands that follow it, in their order, or else before any time passes (log entry 5). -/
def execTick (s : State) : Host.Outcome State Fault Refusal := .next (tickAll (expireDue s))

/-- One CLK period passes (R184): the counter counts it, and a tick occurs when the count reaches TICK_DIV. No timer is due
before the period or after it: the timers that reach their n-th tick expire at that tick. -/
def clkPeriod (s : State) : State :=
  let u := expireDue s
  if u.tickDiv ≤ u.tickCount + 1 then expireDue (tickAll u) else { u with tickCount := u.tickCount + 1 }

/-- RESET with the strap `supv` on SUPV[2:0] (R162, R177, R194): every block takes its reset values. The queue of commands
is not the device's and stays (log entry 17). -/
def execReset (supv : StationId) (s : State) : Host.Outcome State Fault Refusal :=
  .next { State.reset with supervisor := supv, pending := s.pending }

end Sys2Proof.Machine
end

