-- ==== Sys2Proof/Machine/Confirming.lean ====
section
/-! DEFINITION. Meanings of POP_CONFIRM and CONFIRM_HEAD_WRITE (chapter 5). -/

namespace Sys2Proof.Machine

/-- POP_CONFIRM (R89). -/
def execPopConfirm (a : StationId) (s : State) : Host.Outcome State Fault Refusal :=
  .next (runCommand a 0x0C (checkStation a) (fun s =>
    match (s.st a).confirms with
    | _ :: rest => (s.modSt a fun r => { r with confirms := rest }, .ok)
    | [] => (s, .empty)) s)

/-- CONFIRM_HEAD_WRITE (R90): whatever value is written, in any station state. -/
def execConfirmHeadWrite (a : StationId) (_w : Word) (s : State) : Host.Outcome State Fault Refusal :=
  .next (writeAccess (fun s => s.modSt a fun r => { r with confirmOverflow := false }) s)

end Sys2Proof.Machine
end

