-- ==== Sys2Proof/Machine/Lifecycle.lean ====
section
/-! DEFINITION. Meanings of ATTACH, RETIRE, RETIRE_STATION and BAD_COMMAND (chapter 9). -/

namespace Sys2Proof.Machine

/-- A station after its ATTACH (R166 and section 9.4.1): what the table of that section names takes its value, the rest
stays. -/
def StationRec.attached (r : StationRec) : StationRec :=
  { r with
    state := .online
    seqCounter := 0
    roomWaitLimit := 0
    lockWaitLimit := 0
    sendResult := { outcome := .none, sequence := 0 }
    limits := Vector.replicate 4 Config.resetQueueLimit
    confirms := []
    confirmOverflow := false
    wait := none
    lastWait := .none
    ring := { r.ring with state := .disabled, produced := 0, consumed := 0 }
    pendingFlags := 0
    enables := 0
    disarm := 0
    levels := 0
    vectorBase := Config.resetVectorBase
    inService := []
    fault := none
    multiple := false }

/-- ATTACH (R166): accepted from OFFLINE, refused IN_USE from ONLINE. -/
def execAttach (a : StationId) (s : State) : Host.Outcome State Fault Refusal :=
  .next (runCommand a 0x01 (checkAttach a) (fun s =>
    if (s.st a).state = .offline then (s.modSt a StationRec.attached, .ok) else (s, .inUse)) s)

/-- RETIRE (R168). -/
def execRetire (a : StationId) (s : State) : Host.Outcome State Fault Refusal :=
  .next (runCommand a 0x02 (checkStation a) (fun s => (enterQuiescing a s, .ok)) s)

/-- RETIRE_STATION of station `t` (R169). -/
def execRetireStation (a t : StationId) (s : State) : Host.Outcome State Fault Refusal :=
  .next (runCommand a 0x22 (checkSupervisor a) (fun s =>
    if (s.st t).state = .online then (enterQuiescing t s, .ok) else (s, .notOnline)) s)

/-- BAD_COMMAND (R164, check 1): refused in any aperture and any station state. RESULT carries the unknown code (R189). -/
def execBadCommand (a : StationId) (code : BitVec 8) (s : State) : Host.Outcome State Fault Refusal :=
  .next (runCommand a code (fun _ => some .badCommand) (fun s => (s, .badCommand)) s)

end Sys2Proof.Machine
end

