-- ==== Sys2Proof/Machine/Notification.lean ====
section
/-! DEFINITION. Meanings of the notification words NOTIFY_PENDING, NOTIFY_ENABLE, NOTIFY_DISARM, NOTIFY_LEVELS, VECTOR_BASE, ACK, END_SERVICE and FAULT_RECORD (chapter 8). -/

namespace Sys2Proof.Machine

/-- A configuration write of station `a`: it acts while the station is ONLINE and is ignored otherwise (R143). -/
def configure (a : StationId) (f : StationRec → StationRec) (s : State) : State :=
  if (s.st a).state = .online then s.modSt a f else s

/-- NOTIFY_PENDING (R142): the flags named are cleared, in any station state. -/
def execNotifyPending (a : StationId) (w : Word) (s : State) : Host.Outcome State Fault Refusal :=
  .next (writeAccess (fun s => s.modSt a fun r => { r with pendingFlags := r.pendingFlags &&& ~~~ w.setWidth 8 }) s)

/-- NOTIFY_ENABLE (R143). -/
def execNotifyEnable (a : StationId) (w : Word) (s : State) : Host.Outcome State Fault Refusal :=
  .next (writeAccess (configure a fun r => { r with enables := w.setWidth 8 }) s)

/-- NOTIFY_DISARM (R143). -/
def execNotifyDisarm (a : StationId) (w : Word) (s : State) : Host.Outcome State Fault Refusal :=
  .next (writeAccess (configure a fun r => { r with disarm := w.setWidth 8 }) s)

/-- NOTIFY_LEVELS (R143). -/
def execNotifyLevels (a : StationId) (w : Word) (s : State) : Host.Outcome State Fault Refusal :=
  .next (writeAccess (configure a fun r => { r with levels := w.setWidth 24 }) s)

/-- VECTOR_BASE (R143). -/
def execVectorBase (a : StationId) (w : Word) (s : State) : Host.Outcome State Fault Refusal :=
  .next (writeAccess (configure a fun r => { r with vectorBase := w.setWidth 8 }) s)

/-- ACK (R147, R148): the read acknowledges the chosen source and returns its word, or returns 0 and changes nothing. -/
def execAck (a : StationId) (s : State) : Host.Outcome State Fault Refusal :=
  .next (
    if s.bown then unanswered s
    else
      match (s.st a).chosenSource with
      | some n => answerComplete (some ((s.st a).ackWord n)) (s.modSt a fun r => r.acknowledge n)
      | none => answerComplete (some 0) s)

/-- END_SERVICE (R150): the newest entry of the in-service list is removed, whatever value is written. -/
def execEndService (a : StationId) (_w : Word) (s : State) : Host.Outcome State Fault Refusal :=
  .next (writeAccess (fun s => s.modSt a fun r => { r with inService := r.inService.dropLast }) s)

/-- FAULT_RECORD_WRITE (R158): the record is emptied, whatever value is written and in any station state. -/
def execFaultRecordWrite (a : StationId) (_w : Word) (s : State) : Host.Outcome State Fault Refusal :=
  .next (writeAccess (fun s => s.modSt a fun r => { r with fault := none, multiple := false }) s)

end Sys2Proof.Machine
end

