-- ==== Sys2Proof/Machine/Registers.lean ====
section
/-! DEFINITION. Meanings of WAIT_LIMITS, REGISTER_WRITE and PARTIAL_OR_UNMAPPED_ACCESS (chapters 9 and 10). -/

namespace Sys2Proof.Machine

/-- WAIT_LIMITS (R174, Table 10-8): both limits are replaced while the station is ONLINE; ignored otherwise. -/
def execWaitLimits (a : StationId) (w : Word) (s : State) : Host.Outcome State Fault Refusal :=
  .next (writeAccess (fun s =>
    if (s.st a).state = .online then
      s.modSt a fun r => { r with roomWaitLimit := w.setWidth 16, lockWaitLimit := (w >>> 16).setWidth 16 }
    else s) s)

/-- What a whole-word write stores in a station's words that hold a plain value (R39, R116, R165, Table 10-1); the other
words of an aperture ignore it. -/
def StationRec.storePlain (r : StationRec) (t : ApertureWord) (w : Word) : StationRec :=
  match t with
  | .supOperand => { r with supOperand := w }
  | .sendTag => { r with sendTag := w.setWidth 16 }
  | .ringBase => { r with ring := { r.ring with base := w } }
  | .ringSlots => { r with ring := { r.ring with slots := w } }
  | .ringIndexAddr => { r with ring := { r.ring with indexAddr := w } }
  | _ => r

/-- REGISTER_WRITE (R181, R182): stored as a plain value in any station state, or ignored. -/
def execRegisterWrite (t : WindowWord) (w : Word) (s : State) : Host.Outcome State Fault Refusal :=
  .next (writeAccess (fun s =>
    match t with
    | .aperture a k => s.modSt a fun r => r.storePlain k w
    | .global _ => s) s)

/-- PARTIAL_OR_UNMAPPED_ACCESS (R180): answered FAULT, with none of the word's effects; recorded as ACCESS_FAULT for the
station whose aperture it fell in. -/
def execPartialOrUnmappedAccess (off : Fin 8192) (_be : BitVec 4) (write : Bool) (s : State) :
    Host.Outcome State Fault Refusal :=
  .next (
    if s.bown then unanswered s
    else
      answerFault write
        (match apertureOf off with
        | some a => recordFault a .accessFault (BitVec.ofNat 32 (apertureOffset off)) s
        | none => s))

end Sys2Proof.Machine
end

