-- ==== Sys2Proof/Machine/Rings.lean ====
section
/-! DEFINITION. Meanings of ENABLE_RING, DISABLE_RING, RESUME_RING and RING_CONSUMED (chapter 7). -/

namespace Sys2Proof.Machine

/-- A ring after an accepted ENABLE_RING (R118). -/
def Ring.enabled (g : Ring) : Ring :=
  { g with latchedBase := g.base, latchedSlots := g.slots.toNat, latchedIndex := g.indexAddr, produced := 0, consumed := 0
           state := .active }

/-- ENABLE_RING (R118); the engine may start within the event (R125). -/
def execEnableRing (a : StationId) (s : State) : Host.Outcome State Fault Refusal :=
  .next (runCommand a 0x0E (checkStation a) (fun s =>
    if (s.st a).ring.state ≠ .disabled then (s, .inUse)
    else if (s.st a).ring.setupValid = false then (s, .ringInvalid)
    else (startIfIdle (s.modSt a fun r => { r with ring := r.ring.enabled }), .ok)) s)

/-- DISABLE_RING (R122). -/
def execDisableRing (a : StationId) (s : State) : Host.Outcome State Fault Refusal :=
  .next (runCommand a 0x0F (checkStation a) (fun s =>
    match (s.st a).ring.state with
    | .active =>
      if s.delivering a then (s.modSt a fun r => { r with ring := { r.ring with state := .disabling } }, .ok)
      else (disableRing a s, .ok)
    | .stalled => (disableRing a s, .ok)
    | .faulted => (disableRing a s, .ok)
    | .disabling => (s, .busy)
    | .disabled => (s, .notWaiting)) s)

/-- RESUME_RING (R123); the engine may start within the event (R125). -/
def execResumeRing (a : StationId) (s : State) : Host.Outcome State Fault Refusal :=
  .next (runCommand a 0x10 (checkStation a) (fun s =>
    if (s.st a).ring.state = .faulted then
      (startIfIdle (s.modSt a fun r => { r with ring := { r.ring with state := r.ring.byFill } }), .ok)
    else (s, .notWaiting)) s)

/-- A ring after an accepted RING_CONSUMED write of `v` (R120, R121). -/
def Ring.consume (g : Ring) (v : Half) : Ring :=
  let g' := { g with consumed := v }
  match g.state with
  | .active => { g' with state := g'.byFill }
  | .stalled => { g' with state := g'.byFill }
  | _ => g'

/-- RING_CONSUMED (R120, R121), in any station state; the engine may start within the event (R125). -/
def execRingConsumed (a : StationId) (w : Word) (s : State) : Host.Outcome State Fault Refusal :=
  .next (writeAccess (fun s =>
    let v : Half := w.setWidth 16
    let g := (s.st a).ring
    if g.state = .disabled then s
    else if (g.produced - v).toNat ≤ g.consumedBound (s.delivering a) then
      startIfIdle (s.modSt a fun r => { r with ring := r.ring.consume v })
    else recordFault a .badConsumed (v.setWidth 32) s) s)

end Sys2Proof.Machine
end

