-- ==== Sys2Proof/Machine/Taking.lean ====
section
/-! DEFINITION. Meanings of TAKE, TAKE_ANY, RELEASE and SET_QLIMIT (chapter 4). -/

namespace Sys2Proof.Machine

/-- The first two checks of TAKE and TAKE_ANY (R66). -/
def checkTake (a : StationId) (s : State) : Option ResultCode :=
  if (s.st a).ring.state ≠ .disabled then some .ringMode
  else if (s.st a).readSlot.isSome then some .holding
  else none

/-- The head of queue `c` of station `a` is taken, or the take is refused EMPTY (R66, R68). -/
def takeFrom (a : StationId) (c : ClassId) (s : State) : State × ResultCode :=
  match (s.st a).queue c with
  | d :: _ => (takeHead a c d s, .ok)
  | [] => (s, .empty)

/-- TAKE (R66). -/
def execTake (a : StationId) (c : ClassId) (s : State) : Host.Outcome State Fault Refusal :=
  .next (runCommand a 0x05 (checkStation a) (fun s =>
    match checkTake a s with
    | some refusal => (s, refusal)
    | none => takeFrom a c s) s)

/-- TAKE_ANY (R67). -/
def execTakeAny (a : StationId) (s : State) : Host.Outcome State Fault Refusal :=
  .next (runCommand a 0x06 (checkStation a) (fun s =>
    match checkTake a s with
    | some refusal => (s, refusal)
    | none =>
      match (s.st a).urgentClass with
      | some c => takeFrom a c s
      | none => (s, .empty)) s)

/-- RELEASE (R72): the read slot empties and its message ends RELEASED. -/
def execRelease (a : StationId) (s : State) : Host.Outcome State Fault Refusal :=
  .next (runCommand a 0x07 (checkStation a) (fun s =>
    match (s.st a).readSlot with
    | some slot => (endMessage .released slot.desc (s.modSt a fun r => { r with readSlot := none }), .ok)
    | none => (s, .notHolding)) s)

/-- SET_QLIMIT (R61). -/
def execSetQlimit (a : StationId) (c : ClassId) (limit : Fin 256) (s : State) : Host.Outcome State Fault Refusal :=
  .next (runCommand a 0x0D (checkStation a) (fun s =>
    if limit = 0 then (s, .badOperand)
    else if limit.val < ((s.st a).queue c).length then (s, .inUse)
    else (s.modSt a fun r => { r with limits := put r.limits c limit }, .ok)) s)

end Sys2Proof.Machine
end

