-- ==== Sys2Proof/Machine/Dispatch.lean ====
section
/-! DEFINITION. The command of the table and its meaning: one arm for each constructor of Instr. -/

namespace Sys2Proof.Machine

/-- The effect of a command on everything but the queue. -/
def exec (i : Instr) (s : State) : Host.Outcome State Fault Refusal :=
  match i with
  | .attach a => Sys2Proof.Machine.execAttach a s
  | .retire a => Sys2Proof.Machine.execRetire a s
  | .retireStation a t => Sys2Proof.Machine.execRetireStation a t s
  | .post a ch len pass l => Sys2Proof.Machine.execPost a ch len pass l s
  | .cancelPost a => Sys2Proof.Machine.execCancelPost a s
  | .take a c => Sys2Proof.Machine.execTake a c s
  | .takeAny a => Sys2Proof.Machine.execTakeAny a s
  | .release a => Sys2Proof.Machine.execRelease a s
  | .acquire a l => Sys2Proof.Machine.execAcquire a l s
  | .tryLock a l => Sys2Proof.Machine.execTryLock a l s
  | .releaseLock a l => Sys2Proof.Machine.execReleaseLock a l s
  | .cancelWait a => Sys2Proof.Machine.execCancelWait a s
  | .popConfirm a => Sys2Proof.Machine.execPopConfirm a s
  | .setQlimit a c limit => Sys2Proof.Machine.execSetQlimit a c limit s
  | .enableRing a => Sys2Proof.Machine.execEnableRing a s
  | .disableRing a => Sys2Proof.Machine.execDisableRing a s
  | .resumeRing a => Sys2Proof.Machine.execResumeRing a s
  | .openChannel a ch dest c hold confirm pass limit => Sys2Proof.Machine.execOpenChannel a ch dest c hold confirm pass limit s
  | .closeChannel a ch => Sys2Proof.Machine.execCloseChannel a ch s
  | .forceRelease a l => Sys2Proof.Machine.execForceRelease a l s
  | .setTick a => Sys2Proof.Machine.execSetTick a s
  | .setEngine a response retry burst => Sys2Proof.Machine.execSetEngine a response retry burst s
  | .badCommand a code => Sys2Proof.Machine.execBadCommand a code s
  | .stagingWrite a k w => Sys2Proof.Machine.execStagingWrite a k w s
  | .ringConsumed a w => Sys2Proof.Machine.execRingConsumed a w s
  | .notifyPending a w => Sys2Proof.Machine.execNotifyPending a w s
  | .notifyEnable a w => Sys2Proof.Machine.execNotifyEnable a w s
  | .notifyDisarm a w => Sys2Proof.Machine.execNotifyDisarm a w s
  | .notifyLevels a w => Sys2Proof.Machine.execNotifyLevels a w s
  | .vectorBase a w => Sys2Proof.Machine.execVectorBase a w s
  | .ack a => Sys2Proof.Machine.execAck a s
  | .endService a w => Sys2Proof.Machine.execEndService a w s
  | .confirmHeadWrite a w => Sys2Proof.Machine.execConfirmHeadWrite a w s
  | .faultRecordWrite a w => Sys2Proof.Machine.execFaultRecordWrite a w s
  | .waitLimits a w => Sys2Proof.Machine.execWaitLimits a w s
  | .registerWrite t w => Sys2Proof.Machine.execRegisterWrite t w s
  | .partialOrUnmappedAccess off be write => Sys2Proof.Machine.execPartialOrUnmappedAccess off be write s
  | .reset supv => Sys2Proof.Machine.execReset supv s
  | .tick => Sys2Proof.Machine.execTick s
  | .roomWaitTimerExpiry a => Sys2Proof.Machine.execRoomWaitTimerExpiry a s
  | .waitTimerExpiry a => Sys2Proof.Machine.execWaitTimerExpiry a s
  | .responseLimitExpiry => Sys2Proof.Machine.execResponseLimitExpiry s
  | .copyCompletion a => Sys2Proof.Machine.execCopyCompletion a s
  | .busGrant => Sys2Proof.Machine.execBusGrant s
  | .brqReassert => Sys2Proof.Machine.execBrqReassert s
  | .respComplete => Sys2Proof.Machine.execRespComplete s
  | .respRetry => Sys2Proof.Machine.execRespRetry s
  | .respFault => Sys2Proof.Machine.execRespFault s

end Sys2Proof.Machine
end

