-- ==== Sys2Proof/Machine/Readback.lean ====
section
/-! DEFINITION. What a whole-word read of each mapped word returns (Tables 10-1 and 10-2, R187 to R193). A read changes nothing, but for ACK, which is a command of its own (R183). -/

namespace Sys2Proof.Machine

/-- The code of a station state (Table 10-6). -/
def StationState.code : StationState → Nat
  | .offline => 0
  | .online => 1
  | .quiescing => 2

/-- The code of a result (Table 10-5). -/
def ResultCode.code : ResultCode → Nat
  | .ok => 0
  | .pending => 1
  | .busy => 2
  | .notOnline => 3
  | .badCommand => 4
  | .badOperand => 5
  | .notSupervisor => 6
  | .inUse => 7
  | .badChannel => 8
  | .notPermitted => 9
  | .destOffline => 10
  | .channelFull => 11
  | .noRoom => 12
  | .empty => 14
  | .holding => 15
  | .notHolding => 16
  | .lockNotOwned => 17
  | .lockPledged => 18
  | .passNotAllowed => 19
  | .alreadyHeld => 20
  | .lockBusy => 21
  | .notWaiting => 25
  | .ringMode => 26
  | .ringInvalid => 27

/-- The code of a send state (Table 10-6). -/
def SendState.code : SendState → Nat
  | .idle => 0
  | .awaitRoom _ => 1
  | .copying _ _ => 2

/-- The code of a SEND_RESULT outcome (Table 10-6). -/
def SendOutcome.code : SendOutcome → Nat
  | .none => 0
  | .ok => 1
  | .destOffline => 2
  | .queueFull => 3
  | .timeout => 4
  | .cancelled => 5
  | .closed => 6

/-- The code of a last wait outcome (Table 10-6). -/
def WaitOutcome.code : WaitOutcome → Nat
  | .none => 0
  | .granted => 1
  | .timeout => 2
  | .cancelled => 3

/-- The code of a confirmation outcome (Table 10-6). -/
def EndOutcome.code : EndOutcome → Nat
  | .released => 1
  | .delivered => 2
  | .discarded => 3

/-- The code of a lock state (Table 10-6). -/
def LockState.code : LockState → Nat
  | .free => 0
  | .held _ => 1
  | .pledged _ => 2
  | .carried _ => 3

/-- The code of a ring state (Table 10-6). -/
def RingState.code : RingState → Nat
  | .disabled => 0
  | .active => 1
  | .stalled => 2
  | .faulted => 3
  | .disabling => 4

/-- The code of an engine state (Table 10-6). -/
def EngineState.code : EngineState → Nat
  | .idle => 0
  | .busWait _ => 1
  | .transfer _ _ => 2

/-- The code of a channel state (Table 10-6). -/
def ChannelState.code : ChannelState → Nat
  | .closed => 0
  | .opened => 1

/-- The code of a fault (Table 10-6). -/
def FaultCode.code : FaultCode → Nat
  | .stagingCollision => 1
  | .accessFault => 2
  | .ringBusFault => 3
  | .ringNoResponse => 4
  | .ringRetryExhausted => 5
  | .badConsumed => 6
  | .lockRevoked => 7
  | .confirmOverflow => 8

/-- The owner of a lock, valid in HELD and PLEDGED; 0 otherwise (R114, R192). -/
def LockState.ownerField : LockState → Nat
  | .held o => o.val
  | .pledged o => o.val
  | _ => 0

/-- The carrier of a lock, valid in CARRIED; 0 otherwise (R114, R192). -/
def LockState.carrierField : LockState → Nat
  | .carried d => d.val
  | _ => 0

/-- A list of stations in bits 3e + 2 to 3e for entry e, head first (R193). -/
def stationFields (l : List StationId) : List (Nat × Nat) := l.zipIdx.map fun x => (3 * x.2, x.1.val)

/-- STATION_STATUS (R175). -/
def StationRec.statusWord (r : StationRec) : Word :=
  pack [(0, r.state.code), (2, r.send.code), (4, flagValue r.readSlot.isSome), (5, flagValue r.wait.isSome),
    (8, (r.wait.map (·.lock.val)).getD 0), (16, r.lastWait.code)]

/-- CONFIRM_HEAD (R90): the head entry's fields are valid when the list holds one. -/
def StationRec.confirmHeadWord (r : StationRec) : Word :=
  match r.confirms with
  | e :: _ =>
    pack [(31, 1), (30, flagValue r.confirmOverflow), (24, r.confirms.length), (22, e.outcome.code), (16, e.channel.val),
      (0, e.sequence.toNat)]
  | [] => pack [(30, flagValue r.confirmOverflow)]

/-- IN_SERVICE (R146). -/
def StationRec.inServiceWord (r : StationRec) : Word :=
  pack [(16, placed (allSources.map fun n => (n.val, flagValue (r.serving n)))), (8, r.topLevel),
    (4, (r.inService.getLast?.map (·.source.val)).getD 0), (0, r.inService.length)]

/-- FAULT_RECORD (R158). -/
def StationRec.faultRecordWord (r : StationRec) : Word :=
  pack [(31, flagValue r.multiple), (0, (r.fault.map (·.code.code)).getD 0)]

/-- LOCKS_OWNED of station `a` (R114): bit L set when lock L is HELD or PLEDGED with the station as owner. -/
def locksOwnedWord (a : StationId) (s : State) : Word :=
  pack ((List.finRange 32).map fun l =>
    (l.val, match (s.lock l).state with
      | .held o => flagValue (o == a)
      | .pledged o => flagValue (o == a)
      | _ => 0))

/-- Payload word `i` of the message in the read slot, or 0 (R70). -/
def payloadWindow (a : StationId) (i : Fin 64) (s : State) : Word :=
  match (s.st a).readSlot with
  | some slot =>
    match s.msg slot.desc with
    | some m => payloadWord m s.cellStore i.val
    | none => 0
  | none => 0

/-- The content of an aperture word (Table 10-1). ACK is given as valid clear: its read is the command ACK. -/
def readAperture (a : StationId) (w : ApertureWord) (s : State) : Word :=
  let r := s.st a
  match w with
  | .command => 0
  | .result => pack [(8, r.result.command.toNat), (0, r.result.code.code)]
  | .supOperand => r.supOperand
  | .stationStatus => r.statusWord
  | .waitLimits => pack [(16, r.lockWaitLimit.toNat), (0, r.roomWaitLimit.toNat)]
  | .sendTag => pack [(0, r.sendTag.toNat)]
  | .sendResult => pack [(16, r.sendResult.outcome.code), (0, r.sendResult.sequence.toNat)]
  | .queueLengths => pack (allClasses.map fun c => (8 * c.val, (r.queue c).length))
  | .queueLimits => pack (allClasses.map fun c => (8 * c.val, (r.limit c).val))
  | .readHeader0 => (r.readSlot.map (·.header0)).getD 0
  | .readHeader1 => (r.readSlot.map (·.header1)).getD 0
  | .confirmHead => r.confirmHeadWord
  | .locksOwned => locksOwnedWord a s
  | .ringBase => r.ring.base
  | .ringSlots => r.ring.slots
  | .ringIndexAddr => r.ring.indexAddr
  | .ringConsumed => pack [(0, r.ring.consumed.toNat)]
  | .ringStatus => pack [(8, r.ring.latchedSlots), (0, r.ring.state.code)]
  | .ringCounts => pack [(16, r.ring.consumed.toNat), (0, r.ring.produced.toNat)]
  | .notifyPending => pack [(0, r.pendingFlags.toNat)]
  | .notifyEnable => pack [(0, r.enables.toNat)]
  | .notifyDisarm => pack [(0, r.disarm.toNat)]
  | .notifyLevels => pack [(0, r.levels.toNat)]
  | .vectorBase => pack [(0, r.vectorBase.toNat)]
  | .ack => 0
  | .endService => 0
  | .inService => r.inServiceWord
  | .faultRecord => r.faultRecordWord
  | .faultDetail => (r.fault.map (·.detail)).getD 0
  | .staging k => entry r.staging k
  | .payload i => payloadWindow a i s

/-- ROOM_QUEUE (R19). -/
def roomQueueWord (s : State) : Word :=
  pack ([(28, (s.roomQueue.head?.map (·.cellsNeeded)).getD 0), (24, s.roomQueue.length)]
    ++ stationFields (s.roomQueue.map (·.station)))

/-- ENGINE_STATUS (R137): the delivery's fields are valid when the engine is not IDLE. -/
def engineStatusWord (s : State) : Word :=
  let delivery : List (Nat × Nat) :=
    match s.engine.delivery with
    | some d => [(16, d.retries), (8, d.desc.val), (5, d.cls.val), (2, d.station.val)]
    | none => []
  pack ([(25, s.rrPointer.val), (20, s.burst), (0, s.engine.code)] ++ delivery)

/-- CHANNEL_ROUTE (R34). -/
def Channel.routeWord (e : Channel) : Word :=
  pack [(16, e.mask.toNat), (8, flagValue e.pass), (7, flagValue e.confirm), (6, flagValue e.hold), (4, e.cls.val),
    (1, e.dest.val), (0, e.state.code)]

/-- LOCK_RECORD (R114). -/
def LockRecord.recordWord (e : LockRecord) : Word :=
  pack [(16, e.waiters.length), (8, e.state.carrierField), (2, e.state.ownerField), (0, e.state.code)]

/-- The content of a word of the global page (Table 10-2, R193). -/
def readGlobal (g : GlobalWord) (s : State) : Word :=
  match g with
  | .stationStates =>
    pack ((16, s.supervisor.val) :: (List.finRange 8).map fun a => (2 * a.val, (s.st a).state.code))
  | .storeStatus => pack [(28, s.roomQueue.length), (16, s.freeDescs.length), (0, s.freeCells.length)]
  | .roomQueue => roomQueueWord s
  | .engineStatus => engineStatusWord s
  | .engineConfig => pack [(16, s.burstLimit), (8, s.retryBudget), (0, s.responseLimit)]
  | .tickConfig => pack [(0, s.tickDiv)]
  | .channelRoute c => (s.chan c).routeWord
  | .channelCount c => pack [(8, (s.chan c).count), (0, (s.chan c).limit.val)]
  | .lockRecord l => (s.lock l).recordWord
  | .lockWaiters l => pack ((24, (s.lock l).waiters.length) :: stationFields (s.lock l).waiters)

/-- What a whole-word read of a mapped word returns, in any station state (R181, R182). -/
def readWord (t : WindowWord) (s : State) : Word :=
  match t with
  | .aperture a w => readAperture a w s
  | .global g => readGlobal g s

/-- A whole-word read of a mapped word other than ACK (R178, R179, R183): answered COMPLETE with the word on D[31:0], or not
answered while the device owns the bus; it changes nothing else. -/
def answerRead (t : WindowWord) (s : State) : State :=
  if s.bown then unanswered s else answerComplete (some (readWord t s)) s

end Sys2Proof.Machine
end

