-- ==== Sys2Proof/Machine/BusEvents.lean ====
section
/-! DEFINITION. The events at the bus pins: one access to the window, and one value of RESP[1:0] read as master. -/

namespace Sys2Proof.Machine

/-- One access to the window, taken whole as one event (R179): the command it is, or a plain read, which has no row in
spec/opcode_table.json (log entry 9). -/
def serveAccess (x : BusAccess) (s : State) : Host.Outcome State Fault Refusal :=
  match decodeAccess x, windowWordAt x.off with
  | some c, _ => exec c s
  | none, some t => .next (answerRead t s)
  | none, none => .next s

/-- The event that a value of RESP[1:0] is while a cycle of the device's own is open (R186): 0 is no response. -/
def decodeResponse (resp : BitVec 2) : Option Instr :=
  match resp.toNat with
  | 1 => some .respComplete
  | 2 => some .respRetry
  | 3 => some .respFault
  | _ => none

end Sys2Proof.Machine
end

