-- ==== Sys2Proof/Safety.lean ====
section
/-! DEFINITION. The words the statements use: how an accepted access is answered, and what holds of the device between any
two events (R1, R2, R12, R13, R31, R60, R88, R95, R119 to R121, R124, R136, R146, R153, R161, R184). -/

namespace Sys2Proof.Machine

/-! ### Answers -/

/-- State `t` after a write answered COMPLETE (R179). -/
def written (t : State) : State := { t with answer := some { resp := .complete, data := none } }

/-- State `t` after a COMMAND write in aperture `a`: `code` and the command code are in RESULT, the write is answered
COMPLETE (R163, R179). -/
def answered (a : StationId) (command : BitVec 8) (code : ResultCode) (t : State) : State :=
  written (t.modSt a fun r => { r with result := { code, command } })

/-- Bits `hi` to `lo` of a word, as the layout tables of section 10.7 name a field. -/
def bits (w : Word) (hi lo : Nat) : Nat := (w.extractLsb' lo (hi + 1 - lo)).toNat

/-! ### What a station's record becomes -/

/-- The record after source `n` is set: its pending flag is set at an ONLINE station, and the set is dropped at any other
(R141). -/
def StationRec.raised (n : SourceId) (r : StationRec) : StationRec :=
  { r with pendingFlags := if r.state = .online then r.pendingFlags ||| 1#8 <<< n.val else r.pendingFlags }

/-- The record after a fault is handed over: code and detail are replaced, MULTIPLE is set if the record held a fault, and
ALERT is set (R157). -/
def StationRec.faulted (code : FaultCode) (detail : Word) (r : StationRec) : StationRec :=
  { r with fault := some { code, detail }, multiple := r.multiple || r.fault.isSome }.raised 7

/-- Bit c is set for each class c whose queue is non-empty, c from 0 to 3 (R64). -/
def StationRec.arrivals (r : StationRec) : BitVec 8 :=
  allClasses.foldl (fun b c => if r.queue c = [] then b else b ||| 1#8 <<< c.val) 0

/-- The record after its ring becomes DISABLED: the latched fields and counts stay, and at an ONLINE station the ARRIVE
sources of the non-empty classes are set (R64, R122). -/
def StationRec.ringOff (r : StationRec) : StationRec :=
  { r with
    ring := { r.ring with state := .disabled }
    pendingFlags := if r.state = .online then r.pendingFlags ||| r.arrivals else r.pendingFlags }

/-- The level of source `n`: bits 3n + 2 to 3n of NOTIFY_LEVELS (R143). -/
def StationRec.sourceLevel (r : StationRec) (n : SourceId) : Nat := (r.levels.extractLsb' (3 * n.val) 3).toNat

/-- Source `n` is eligible, in the words of R144. -/
def StationRec.Ready (r : StationRec) (n : SourceId) : Prop :=
  r.state = .online ∧ r.pendingFlags.getLsbD n.val = true ∧ r.enables.getLsbD n.val = true ∧ 1 ≤ r.sourceLevel n ∧
    (∀ e ∈ r.inService.getLast?, e.level < r.sourceLevel n) ∧ ∀ e ∈ r.inService, e.source ≠ n

/-- A POST of station `a` passes the seven acceptance checks of Table 3-3 (R42, R43). -/
def State.PostPasses (s : State) (a : StationId) (ch : ChannelId) (len : Fin 128) (pass : Bool) (l : LockId) : Prop :=
  (s.st a).send = .idle ∧ len.val ≤ 64 ∧ (s.chan ch).state = .opened ∧ (s.chan ch).mask.getLsbD a.val = true ∧
    (s.st (s.chan ch).dest).state = .online ∧ (s.chan ch).count < (s.chan ch).limit.val ∧
    (pass = true → (s.chan ch).pass = true ∧ (s.lock l).state = .held a)

/-- Station `a` is ONLINE with an ACTIVE ring and a message in one of its queues (R125). -/
def State.Servable (s : State) (a : StationId) : Prop :=
  (s.st a).state = .online ∧ (s.st a).ring.state = .active ∧ ∃ c, (s.st a).queue c ≠ []

/-! ### Invariants -/

/-- The laws of an in-service list: levels 1 to 7 strictly increasing, no source twice, at most 7 entries (R146). -/
def serviceOrdered (l : List ServiceEntry) : Prop :=
  l.Pairwise (fun x y => x.level < y.level) ∧ (l.map (·.source)).Nodup ∧ (∀ e ∈ l, 1 ≤ e.level ∧ e.level ≤ 7) ∧ l.length ≤ 7

/-- Every station's in-service list keeps its laws (R146). -/
def State.ServiceOrdered (s : State) : Prop := ∀ a, serviceOrdered (s.st a).inService

/-- A station that is not ONLINE has no pending source, no entry in service and no lock wait, and one that is OFFLINE has
empty queues, an empty read slot and an empty confirmation list with its overflow flag clear (R92, R112, R153, R161). -/
def State.AbsentStationsHoldNothing (s : State) : Prop :=
  ∀ a, ((s.st a).state ≠ .online → (s.st a).pendingFlags = 0 ∧ (s.st a).inService = [] ∧ (s.st a).wait = none) ∧
    ((s.st a).state = .offline → (∀ c, (s.st a).queue c = []) ∧ (s.st a).readSlot = none ∧ (s.st a).confirms = [] ∧
      (s.st a).confirmOverflow = false)

/-- An OFFLINE station has no post pending and owns no lock, and its ring is DISABLED (R40, R161). -/
def State.OfflineStationsAreIdle (s : State) : Prop :=
  ∀ a, (s.st a).state = .offline → (s.st a).send = .idle ∧ (s.st a).ring.state = .disabled ∧
    ∀ l, (s.lock l).state ≠ .held a ∧ (s.lock l).state ≠ .pledged a

/-- Every class queue is within its limit, every limit is 1 or more, every confirmation list holds at most 16 entries, and
the queues of an OFFLINE station are empty (R59, R60, R61, R88). -/
def State.ListsWithinLimits (s : State) : Prop :=
  ∀ a, (∀ c, ((s.st a).queue c).length ≤ ((s.st a).limit c).val ∧ 1 ≤ ((s.st a).limit c).val) ∧
    (s.st a).confirms.length ≤ Config.confirmCapacity ∧ ((s.st a).state = .offline → ∀ c, (s.st a).queue c = [])

/-- The cells held by the allocated descriptors. -/
def State.heldCells (s : State) : List CellId :=
  (List.finRange 256).flatMap fun d => ((s.msg d).map (·.cells)).getD []

/-- Every cell is free or held by exactly one message, and every descriptor is free or holds exactly one record
(R1, R2). -/
def State.StoreConserved (s : State) : Prop :=
  (s.freeCells ++ s.heldCells).Perm (List.finRange 1024) ∧ s.freeDescs.Nodup ∧ ∀ d, d ∈ s.freeDescs ↔ s.msg d = none

/-- The pending post of a send state (R41). -/
def SendState.post : SendState → Option Post
  | .idle => none
  | .awaitRoom p => some p
  | .copying p _ => some p

/-- The record is FILLING and was formed from the post `p` of station `a` (R4, R41, Table 3-2). -/
def Message.FilledBy (m : Message) (a : StationId) (p : Post) : Prop :=
  m.state = .filling ∧ m.source = a ∧ m.channel = p.channel ∧ m.dest = p.dest ∧ m.cls = p.cls ∧ m.length = p.length ∧
    m.tag = p.tag ∧ m.sequence = p.sequence ∧ m.carriedLock = p.passLock ∧ m.confirm = p.confirm

/-- The place a message's state says it is in (R7): a FILLING one is held by the COPYING post of its source, a QUEUED one is
in the queue of its class at its destination, a DELIVERING one is named by the delivery record, a READING one is in the read
slot of its destination. -/
def State.InItsPlace (s : State) (d : DescId) (m : Message) : Prop :=
  match m.state with
  | .filling => ∃ p, (s.st m.source).send = .copying p d
  | .queued => d ∈ (s.st m.dest).queue m.cls
  | .delivering => ∃ r, s.engine.delivery = some r ∧ r.desc = d
  | .reading => ∃ slot, (s.st m.dest).readSlot = some slot ∧ slot.desc = d

/-- Every message is in exactly one place (R7, R59, R65, R124): every place that names a descriptor names one whose record
says that it is there, no queue names one twice, and every record is in the place its state names. The locks agree with it:
a lock is CARRIED by the message that carries it and PLEDGED by the station whose pending post passes it (R106 to R108). -/
structure State.MessagesPlaced (s : State) : Prop where
  copying : ∀ a p d, (s.st a).send = .copying p d → ∃ m, s.msg d = some m ∧ m.FilledBy a p
  queued : ∀ a c, ((s.st a).queue c).Nodup ∧ ∀ d ∈ (s.st a).queue c,
    ∃ m, s.msg d = some m ∧ m.dest = a ∧ m.cls = c ∧ (m.state = .queued ∨ m.state = .delivering)
  delivering : ∀ r, s.engine.delivery = some r → ∃ m, s.msg r.desc = some m ∧ m.state = .delivering ∧
    m.dest = r.station ∧ m.cls = r.cls ∧ ((s.st r.station).queue r.cls).head? = some r.desc
  reading : ∀ a slot, (s.st a).readSlot = some slot →
    ∃ m, s.msg slot.desc = some m ∧ m.dest = a ∧ m.state = .reading ∧ m.carriedLock = none
  placed : ∀ d m, s.msg d = some m → s.InItsPlace d m
  carried : ∀ l d, (s.lock l).state = .carried d ↔ ∃ m, s.msg d = some m ∧ m.carriedLock = some l ∧ m.state ≠ .filling
  pledged : ∀ l a, (s.lock l).state = .pledged a ↔ ∃ p, (s.st a).send.post = some p ∧ p.passLock = some l

/-- The need of the head of the room queue does not fit the free counts (R13). -/
def State.RoomHeadBlocked (s : State) : Prop := ∀ e ∈ s.roomQueue.head?, s.fits e.cellsNeeded = false

/-- The room queue holds each station at most once, exactly the stations in AWAIT_ROOM, each with its post's channel and
cells; and a station in AWAIT_ROOM is ONLINE (R12, R18). -/
def State.RoomQueueAgrees (s : State) : Prop :=
  (s.roomQueue.map (·.station)).Nodup ∧
    (∀ e ∈ s.roomQueue, ∃ p, (s.st e.station).send = .awaitRoom p ∧ p.channel = e.channel ∧ p.cellsNeeded = e.cellsNeeded) ∧
    ∀ a p, (s.st a).send = .awaitRoom p → (s.st a).state = .online ∧ ∃ e ∈ s.roomQueue, e.station = a

/-- Messages of channel `c` in existence. -/
def State.messagesOn (s : State) (c : ChannelId) : Nat :=
  (List.finRange 256).countP fun d => (s.msg d).any fun m => m.channel == c

/-- Posts on channel `c` that wait for room. -/
def State.waitingOn (s : State) (c : ChannelId) : Nat := s.roomQueue.countP fun e => e.channel == c

/-- Every outstanding count is the channel's messages in existence plus its posts waiting for room, and is within the
channel's limit (R31); with what keeps it so, the laws of the room queue (R12) and of the free descriptor list (R2). -/
def State.CountsAgree (s : State) : Prop :=
  (∀ c, (s.chan c).count = s.messagesOn c + s.waitingOn c ∧ (s.chan c).count ≤ (s.chan c).limit.val) ∧
    s.RoomQueueAgrees ∧ s.freeDescs.Nodup ∧ ∀ d, d ∈ s.freeDescs ↔ s.msg d = none

/-- No waiter list names a station twice; a station is in the list of a lock exactly when it is WAITING on that lock; a
waiting station is ONLINE; a FREE lock has no waiters (R95, R96, R112). -/
def State.WaitersAgree (s : State) : Prop :=
  (∀ l, (s.lock l).waiters.Nodup) ∧ (∀ a l, a ∈ (s.lock l).waiters ↔ (s.st a).wait.map (·.lock) = some l) ∧
    (∀ a, (s.st a).wait.isSome → (s.st a).state = .online) ∧ ∀ l, (s.lock l).state = .free → (s.lock l).waiters = []

/-- The laws of one ring: S is one of the slot counts and the fill is at most S while the ring is not DISABLED, below S in
ACTIVE and equal to S in STALLED (R118, R119, R121). -/
def Ring.Sound (g : Ring) : Prop :=
  (g.state ≠ .disabled → g.latchedSlots ∈ slotCounts ∧ g.fill ≤ g.latchedSlots) ∧
    (g.state = .active → g.fill < g.latchedSlots) ∧ (g.state = .stalled → g.fill = g.latchedSlots)

/-- Every ring keeps its laws; a delivery is for an ONLINE station whose ring is ACTIVE or DISABLING with a slot free; and
a DISABLING ring has a delivery in progress (R117, R119, R122, R134). -/
def State.RingsSound (s : State) : Prop :=
  ∀ a, (s.st a).ring.Sound ∧
    (s.delivering a = true → (s.st a).state = .online ∧
      ((s.st a).ring.state = .active ∨ (s.st a).ring.state = .disabling) ∧ (s.st a).ring.fill < (s.st a).ring.latchedSlots) ∧
    ((s.st a).ring.state = .disabling → s.delivering a = true)

/-- No timer is at its last tick with its expiry still to come (R184). -/
def State.NoTimerDue (s : State) : Prop :=
  (∀ e ∈ s.roomQueue, e.timer ≠ some 0) ∧ (∀ a, ∀ w ∈ (s.st a).wait, w.timer ≠ some 0) ∧
    ∀ d c, s.engine = .transfer d c → c.timer ≠ 0

/-- The CLK periods from now to the `n`-th tick (R184): `n` − 1 whole spans of TICK_DIV behind the rest of the one in
progress. -/
def State.periodsTo (s : State) (n : Nat) : Nat := (n - 1) * s.tickDiv + (s.tickDiv - s.tickCount)

/-- The state after these commands, one behind the other. -/
def afterAll (cs : List Instr) (s : State) : State :=
  cs.foldl (fun t c => match exec c t with | .next u => u | _ => t) s

/-- The engine configuration, the burst count, the retry count, the response, room-wait and lock-wait timers, TICK_DIV and
the tick counter are in their ranges, and the gap is over while the device owns the bus (R12, R96, R124, R127, R129, R133,
R136, R184, R185). -/
def State.CountersInRange (s : State) : Prop :=
  (1 ≤ s.responseLimit ∧ s.responseLimit ≤ 255) ∧ s.retryBudget ≤ 7 ∧ (1 ≤ s.burstLimit ∧ s.burstLimit ≤ 16) ∧
    s.burst ≤ 16 ∧ (s.bown = true → s.burst < s.burstLimit ∧ s.gap = false) ∧ (∀ d ∈ s.engine.delivery, d.retries ≤ 7) ∧
    (∀ d c, s.engine = .transfer d c → c.timer ≤ 255) ∧ (∀ e ∈ s.roomQueue, ∀ n ∈ e.timer, n ≤ 65535) ∧
    (∀ a, ∀ w ∈ (s.st a).wait, ∀ n ∈ w.timer, n ≤ 65535) ∧ (Config.minTickDiv ≤ s.tickDiv ∧ s.tickDiv ≤ Config.maxTickDiv) ∧
    s.tickCount < s.tickDiv

end Sys2Proof.Machine
end

