-- ==== Sys2Proof/Certificates/Slice0/Obligations.lean ====
section
/-! DEFINITION. The statements for the provers. Each cites in its docstring the rules of spec/ it rests on. -/

open Sys2Proof Sys2Proof.Machine

/-- O1. A step takes the command at the front of the queue and runs it with the queue's rest. (from 00_scope.md section 6, notes/assumptions/17.md) The queue of commands is the model's choice, log entry 17. -/
def Obligations.StepRunsTheFrontCommand : Prop :=
  ∀ (c : Instr) (rest : List Instr) (s : State), s.pending = c :: rest → step s = exec c { s with pending := rest }

/-- O2. A timer of n ticks ends at the n-th tick: TICK counts it, and no CLK period passes over a due one. Idle steps as CLK periods are a choice (log entry 1). (from 10_bus_interface_and_register_window.md section 10.5, 06_locks.md section 6.2, 01_the_message_store.md section 1.6, 07_ring_delivery.md section 7.6, notes/assumptions/1.md, notes/assumptions/5.md, notes/assumptions/16.md) That a step on an empty queue is one CLK period is the model's choice, log entry 1; that a timer's expiry is a command of its own, which does nothing before it is due, is the model's choice, log entry 5; that TICK may come at any value of the tick counter is the model's choice, log entry 16. -/
def Obligations.ClkPeriodsAndTicks : Prop :=
  (∀ s : State,
    (∃ cs, (∀ c ∈ cs, c = .responseLimitExpiry ∨ ∃ a, c = .roomWaitTimerExpiry a ∨ c = .waitTimerExpiry a) ∧
      expireDue s = afterAll cs s) ∧
    (expireDue s).NoTimerDue ∧ (s.NoTimerDue → expireDue s = s) ∧ exec .tick s = exec .tick (expireDue s)) ∧
  (∀ s : State, s.NoTimerDue → ∃ t, exec .tick s = .next t ∧
    t = { s with tickCount := 0, stations := t.stations, roomQueue := t.roomQueue, engine := t.engine } ∧
    (∀ a, t.st a = { s.st a with wait := (s.st a).wait.map fun w => { w with timer := w.timer.map (· - 1) } }) ∧
    t.roomQueue = (s.roomQueue.map fun e => { e with timer := e.timer.map (· - 1) }) ∧
    (∀ d c, s.engine = .transfer d c → t.engine = .transfer d { c with timer := c.timer - 1 }) ∧
    (s.bown = false → t.engine = s.engine)) ∧
  ∀ s : State, s.pending = [] → ∃ t, step s = .next t ∧ t.NoTimerDue ∧
    (s.tickCount + 1 < s.tickDiv → t = { expireDue s with tickCount := s.tickCount + 1 }) ∧
    (s.tickDiv ≤ s.tickCount + 1 → ∀ u, exec .tick s = .next u → t = expireDue u) ∧
    (s.tickCount < s.tickDiv →
      (∀ a w n, (s.st a).wait = some w → w.timer = some n → 1 ≤ n →
        (s.periodsTo n = 1 → (t.st a).wait = none ∧ (t.st a).lastWait = .timeout) ∧
        (1 < s.periodsTo n → ∃ m, (t.st a).wait = some { w with timer := some m } ∧
          t.periodsTo m = s.periodsTo n - 1)) ∧
      (∀ e ∈ t.roomQueue, ∀ m, e.timer = some m → ∃ n, { e with timer := some n } ∈ s.roomQueue ∧ 1 ≤ n ∧
        t.periodsTo m = s.periodsTo n - 1 ∧ 1 < s.periodsTo n) ∧
      ∀ d c, s.engine = .transfer d c → 1 ≤ c.timer →
        (s.periodsTo c.timer = 1 → t.bown = false) ∧
        (1 < s.periodsTo c.timer → ∃ m, t.engine = .transfer d { c with timer := m } ∧
          t.periodsTo m = s.periodsTo c.timer - 1))

/-- O3. The supervisor number and a station's plain words change only by their own commands. That each command answers next, keeping the queue: log entries 20, 17. (from 09_station_lifecycle.md section 9.2, 03_sending.md section 3.1, 09_station_lifecycle.md section 9.3, 07_ring_delivery.md section 7.1, notes/assumptions/17.md, notes/assumptions/20.md) The queue of commands is the model's choice, log entry 17; that nothing stops the device is deduced, log entry 20. -/
def Obligations.EveryCommandAnswersNext : Prop :=
  ∀ (i : Instr) (s : State), ∃ t, exec i s = .next t ∧ t.pending = s.pending ∧
    ((∀ v, i ≠ .reset v) → t.supervisor = s.supervisor ∧ ∀ b,
      ((∀ k w, i ≠ .stagingWrite b k w) → (t.st b).staging = (s.st b).staging) ∧
      ((∀ w, i ≠ .registerWrite (.aperture b .supOperand) w) → (t.st b).supOperand = (s.st b).supOperand) ∧
      ((∀ w, i ≠ .registerWrite (.aperture b .sendTag) w) → (t.st b).sendTag = (s.st b).sendTag) ∧
      ((∀ w, i ≠ .registerWrite (.aperture b .ringBase) w) → (t.st b).ring.base = (s.st b).ring.base) ∧
      ((∀ w, i ≠ .registerWrite (.aperture b .ringSlots) w) → (t.st b).ring.slots = (s.st b).ring.slots) ∧
      ((∀ w, i ≠ .registerWrite (.aperture b .ringIndexAddr) w) → (t.st b).ring.indexAddr = (s.st b).ring.indexAddr))

/-- O4. A station changes state only by the transitions of Table 9-2. (from 09_station_lifecycle.md section 9.1) -/
def Obligations.StationStateTransitions : Prop :=
  ∀ (i : Instr) (s t : State) (a : StationId), exec i s = .next t → (t.st a).state ≠ (s.st a).state →
    (i = .attach a ∧ (s.st a).state = .offline ∧ (t.st a).state = .online) ∨
    ((i = .retire a ∨ ∃ b, i = .retireStation b a) ∧ (s.st a).state = .online) ∨
    (i = .copyCompletion a ∧ (s.st a).state = .quiescing ∧ (t.st a).state = .offline) ∨
    ((∃ v, i = .reset v) ∧ (t.st a).state = .offline)

/-- O5. No access is answered while BOWN is asserted; otherwise a plain read is answered COMPLETE with its word and changes nothing, and any other is its command. (from 10_bus_interface_and_register_window.md section 10.1, 10_bus_interface_and_register_window.md section 10.4, 10_bus_interface_and_register_window.md section 10.6, notes/assumptions/3.md, notes/assumptions/9.md) That an unanswered access has no effect is deduced, log entry 3; that a plain read is served outside exec is the model's choice, log entry 9. -/
def Obligations.AccessesServedUnlessDeviceOwnsBus : Prop :=
  (∀ (i : Instr) (s : State), s.bown = true → (encodeAccess i).isSome = true → exec i s = .next { s with answer := none }) ∧
  (∀ (x : BusAccess) (s : State),
    (s.bown = true → serveAccess x s = .next { s with answer := none }) ∧
    (∀ c, decodeAccess x = some c → serveAccess x s = exec c s) ∧
    ∀ t, windowWordAt x.off = some t → x.be = 15 → x.write = false → (∀ a, t ≠ .aperture a .ack) → s.bown = false →
      serveAccess x s = .next { s with answer := some { resp := .complete, data := some (readWord t s) } }) ∧
  ∀ s : State, (s.answer = none → s.resp = 0) ∧ (∀ v, s.answer = some { resp := .complete, data := v } → s.resp = 1) ∧
    ∀ v, s.answer = some { resp := .fault, data := v } → s.resp = 3

/-- O6. The dispatch checks refuse a COMMAND write in their order, and a refused command changes nothing but RESULT. (from 09_station_lifecycle.md section 9.3, 10_bus_interface_and_register_window.md section 10.7) -/
def Obligations.DispatchChecksRefuseInOrder : Prop :=
  ∀ (a : StationId) (w : Word) (s : State), s.bown = false → ∀ n, w.toNat % 256 = n →
    (BitVec.ofNat 8 n ∉ commandCodes → decodeCommand a w = .badCommand a (BitVec.ofNat 8 n) ∧
      exec (.badCommand a (BitVec.ofNat 8 n)) s = .next (answered a (BitVec.ofNat 8 n) .badCommand s)) ∧
    (BitVec.ofNat 8 n ∈ commandCodes → 0x20 ≤ n → a ≠ s.supervisor →
      exec (decodeCommand a w) s = .next (answered a (BitVec.ofNat 8 n) .notSupervisor s)) ∧
    (BitVec.ofNat 8 n ∈ commandCodes → (0x20 ≤ n → a = s.supervisor) → n ≠ 1 → (s.st a).state ≠ .online →
      exec (decodeCommand a w) s = .next (answered a (BitVec.ofNat 8 n) .notOnline s)) ∧
    (n = 1 → (s.st a).state = .quiescing →
      exec (decodeCommand a w) s = .next (answered a (BitVec.ofNat 8 n) .notOnline s))

/-- O7. A partial or unmapped access is answered FAULT and recorded as ACCESS_FAULT of the aperture it fell in. (from 10_bus_interface_and_register_window.md section 10.1, 08_notification_and_acknowledge.md section 8.7) -/
def Obligations.PartialOrUnmappedAccessFaults : Prop :=
  ∀ (off : Fin 8192) (be : BitVec 4) (write : Bool) (s : State),
    wellFormed (.partialOrUnmappedAccess off be write) = true → s.bown = false →
    (∀ a : StationId, off.val / 512 = a.val →
      exec (.partialOrUnmappedAccess off be write) s =
        .next { s.modSt a (StationRec.faulted .accessFault (BitVec.ofNat 32 (4 * (off.val % 512)))) with
          answer := some { resp := .fault, data := if write then none else some 0 } }) ∧
    (4096 ≤ off.val →
      exec (.partialOrUnmappedAccess off be write) s =
        .next { s with answer := some { resp := .fault, data := if write then none else some 0 } })

/-- O8. WAIT_LIMITS is stored while ONLINE; SUP_OPERAND, SEND_TAG and the ring setup words in any state; other such writes are ignored. (from 03_sending.md section 3.1, 07_ring_delivery.md section 7.1, 09_station_lifecycle.md section 9.3, 09_station_lifecycle.md section 9.7, 10_bus_interface_and_register_window.md section 10.2, 10_bus_interface_and_register_window.md section 10.3) -/
def Obligations.RegisterWritesStoreOrAreIgnored : Prop :=
  ∀ (a : StationId) (w : Word) (s : State), s.bown = false →
    ((s.st a).state = .online → exec (.waitLimits a w) s = .next (written (s.modSt a fun r =>
      { r with roomWaitLimit := w.extractLsb' 0 16, lockWaitLimit := w.extractLsb' 16 16 }))) ∧
    ((s.st a).state ≠ .online → exec (.waitLimits a w) s = .next (written s)) ∧
    exec (.registerWrite (.aperture a .supOperand) w) s = .next (written (s.modSt a fun r => { r with supOperand := w })) ∧
    exec (.registerWrite (.aperture a .sendTag) w) s =
      .next (written (s.modSt a fun r => { r with sendTag := w.extractLsb' 0 16 })) ∧
    exec (.registerWrite (.aperture a .ringBase) w) s =
      .next (written (s.modSt a fun r => { r with ring := { r.ring with base := w } })) ∧
    exec (.registerWrite (.aperture a .ringSlots) w) s =
      .next (written (s.modSt a fun r => { r with ring := { r.ring with slots := w } })) ∧
    exec (.registerWrite (.aperture a .ringIndexAddr) w) s =
      .next (written (s.modSt a fun r => { r with ring := { r.ring with indexAddr := w } })) ∧
    ∀ t : WindowWord, hasOwnRow t = false →
      (∀ b, t ≠ .aperture b .supOperand ∧ t ≠ .aperture b .sendTag ∧ t ≠ .aperture b .ringBase ∧
        t ≠ .aperture b .ringSlots ∧ t ≠ .aperture b .ringIndexAddr) →
      exec (.registerWrite t w) s = .next (written s)

/-- O9. SET_TICK takes TICK_DIV from SUP_OPERAND, SET_ENGINE takes its three fields; an operand out of range is refused BAD_OPERAND. (from 10_bus_interface_and_register_window.md section 10.5, 07_ring_delivery.md section 7.8) -/
def Obligations.SetTickAndSetEngine : Prop :=
  ∀ (a : StationId) (response : Fin 256) (retry : Fin 8) (burst : Fin 32) (s : State),
    s.bown = false → a = s.supervisor → (s.st a).state = .online →
    (16 ≤ (s.st a).supOperand.toNat → (s.st a).supOperand.toNat ≤ 65535 →
      exec (.setTick a) s =
        .next (answered a 0x24 .ok { s with tickDiv := (s.st a).supOperand.toNat, tickCount := 0 })) ∧
    ((s.st a).supOperand.toNat < 16 ∨ 65535 < (s.st a).supOperand.toNat →
      exec (.setTick a) s = .next (answered a 0x24 .badOperand s)) ∧
    (1 ≤ response.val → 1 ≤ burst.val → burst.val ≤ 16 →
      exec (.setEngine a response retry burst) s =
        .next (answered a 0x25 .ok
          { s with responseLimit := response.val, retryBudget := retry.val, burstLimit := burst.val })) ∧
    (response.val = 0 ∨ burst.val = 0 ∨ 16 < burst.val →
      exec (.setEngine a response retry burst) s = .next (answered a 0x25 .badOperand s))

/-- O10. RESET gives every register, list and counter its reset value and samples SUPV. Answer, queue and gap after it are the model's: log entries 22, 17, 6. (from 01_the_message_store.md section 1.8, 02_channels.md section 2.7, 03_sending.md section 3.8, 04_station_queues_and_taking.md section 4.9, 05_message_end_and_confirmations.md section 5.4, 06_locks.md section 6.9, 07_ring_delivery.md section 7.9, 08_notification_and_acknowledge.md section 8.1, 09_station_lifecycle.md section 9.10, 10_bus_interface_and_register_window.md section 10.5, notes/assumptions/6.md, notes/assumptions/22.md) That a dropped request begins a gap too, that BRQ_REASSERT ends the gap in every engine state, and that RESET leaves none, is deduced, log entry 6; that no answer stands after RESET is the model's choice, log entry 22. -/
def Obligations.ResetValues : Prop :=
  ∀ (v : StationId) (s : State), ∃ t, exec (.reset v) s = .next t ∧ t.supervisor = v ∧
    (∀ a, (t.st a).state = .offline ∧ (t.st a).seqCounter = 0 ∧ (t.st a).roomWaitLimit = 0 ∧ (t.st a).lockWaitLimit = 0 ∧
      (t.st a).result = { code := .ok, command := 0 } ∧ (t.st a).supOperand = 0 ∧ (∀ k, entry (t.st a).staging k = 0) ∧
      (t.st a).sendTag = 0 ∧ (t.st a).send = .idle ∧ (t.st a).sendResult = { outcome := .none, sequence := 0 } ∧
      (∀ c, (t.st a).queue c = [] ∧ ((t.st a).limit c).val = 32) ∧ (t.st a).readSlot = none ∧ (t.st a).confirms = [] ∧
      (t.st a).confirmOverflow = false ∧ (t.st a).wait = none ∧ (t.st a).lastWait = .none ∧
      (t.st a).ring = { base := 0, slots := 0, indexAddr := 0, latchedBase := 0, latchedSlots := 0, latchedIndex := 0,
                        state := .disabled, produced := 0, consumed := 0 } ∧
      (t.st a).pendingFlags = 0 ∧ (t.st a).enables = 0 ∧ (t.st a).disarm = 0 ∧ (t.st a).levels = 0 ∧
      (t.st a).vectorBase = 0x40 ∧ (t.st a).inService = [] ∧ (t.st a).fault = none ∧ (t.st a).multiple = false) ∧
    (∀ c, t.chan c = { state := .closed, dest := 0, cls := 0, mask := 0, hold := false, confirm := false, pass := false,
                       limit := 1, count := 0 }) ∧
    (∀ l, t.lock l = { state := .free, waiters := [] }) ∧ t.freeCells = List.finRange 1024 ∧
    t.freeDescs = List.finRange 256 ∧ (∀ d, t.msg d = none) ∧ t.roomQueue = [] ∧ t.engine = .idle ∧ t.gap = false ∧ t.rrPointer = 7 ∧
    t.burst = 0 ∧ t.responseLimit = 8 ∧ t.retryBudget = 2 ∧ t.burstLimit = 1 ∧ t.tickDiv = 1000 ∧ t.tickCount = 0 ∧
    t.answer = none ∧ t.pending = s.pending

/-- O11. ATTACH from OFFLINE makes the station ONLINE and re-initializes its state; from ONLINE it is refused IN_USE. (from 09_station_lifecycle.md section 9.4, 09_station_lifecycle.md section 9.4.1) -/
def Obligations.AttachFromOffline : Prop :=
  ∀ (a : StationId) (s : State), s.bown = false →
    ((s.st a).state = .offline → exec (.attach a) s = .next (answered a 0x01 .ok (s.modSt a fun r =>
      { r with
        state := .online, seqCounter := 0, roomWaitLimit := 0, lockWaitLimit := 0
        sendResult := { outcome := .none, sequence := 0 }
        limits := Vector.replicate 4 32, confirms := [], confirmOverflow := false, wait := none, lastWait := .none
        ring := { r.ring with state := .disabled, produced := 0, consumed := 0 }
        pendingFlags := 0, enables := 0, disarm := 0, levels := 0, vectorBase := 0x40, inService := []
        fault := none, multiple := false }))) ∧
    ((s.st a).state = .online → exec (.attach a) s = .next (answered a 0x01 .inUse s))

/-- O12. RETIRE with no copy in flight ends the station's waits, hands its locks off and takes it to OFFLINE in the one event; the gap begun then is log entry 6. (from 09_station_lifecycle.md section 9.5, 09_station_lifecycle.md section 9.6, 03_sending.md section 3.8, 04_station_queues_and_taking.md section 4.7, 05_message_end_and_confirmations.md section 5.5, 06_locks.md section 6.4, 06_locks.md section 6.7, 07_ring_delivery.md section 7.7, 07_ring_delivery.md section 7.9, 08_notification_and_acknowledge.md section 8.6, 10_bus_interface_and_register_window.md section 10.6, notes/assumptions/6.md) That a dropped request begins a gap too, that BRQ_REASSERT ends the gap in every engine state, and that RESET leaves none, is deduced, log entry 6. -/
def Obligations.RetireWithNoCopyInFlight : Prop :=
  ∀ (a : StationId) (s : State), s.bown = false → (s.st a).state = .online → (s.st a).send.isCopying = false →
    s.RoomQueueAgrees → s.WaitersAgree → ∃ t, exec (.retire a) s = .next t ∧
    (∀ c, (t.st a).queue c = []) ∧ t.st a =
      { s.st a with
        state := .offline, result := { code := .ok, command := 0x02 }, send := .idle
        sendResult := match (s.st a).send with
          | .awaitRoom p => { outcome := .cancelled, sequence := p.sequence }
          | _ => (s.st a).sendResult
        queues := (t.st a).queues, readSlot := none, confirms := [], confirmOverflow := false, wait := none
        lastWait := if (s.st a).wait.isSome then .cancelled else (s.st a).lastWait
        ring := { (s.st a).ring with state := .disabled }, pendingFlags := 0, inService := [] } ∧
    (∀ l, (t.lock l).state ≠ .held a ∧ a ∉ (t.lock l).waiters) ∧ t.delivering a = false ∧ (∀ e ∈ t.roomQueue, e.station ≠ a) ∧
    (∀ b, b ≠ a → (t.st b).state = (s.st b).state ∧ (t.st b).queues = (s.st b).queues ∧
      (t.st b).readSlot = (s.st b).readSlot ∧ (t.st b).ring = (s.st b).ring ∧ (t.st b).limits = (s.st b).limits ∧
      (t.st b).staging = (s.st b).staging ∧ (t.st b).sendTag = (s.st b).sendTag ∧ (t.st b).result = (s.st b).result ∧
      (t.st b).supOperand = (s.st b).supOperand ∧ (t.st b).sendResult = (s.st b).sendResult ∧
      (t.st b).seqCounter = (s.st b).seqCounter ∧ (t.st b).roomWaitLimit = (s.st b).roomWaitLimit ∧
      (t.st b).lockWaitLimit = (s.st b).lockWaitLimit ∧ (t.st b).enables = (s.st b).enables ∧
      (t.st b).disarm = (s.st b).disarm ∧ (t.st b).levels = (s.st b).levels ∧
      (t.st b).vectorBase = (s.st b).vectorBase ∧ (t.st b).inService = (s.st b).inService) ∧
    (s.delivering a = false → t.engine = s.engine ∧ t.gap = s.gap ∧ t.rrPointer = s.rrPointer) ∧
    (s.delivering a = true → t.gap = true ∧ t.bown = false) ∧
    (s.MessagesPlaced → s.StoreConserved → ∀ l ws, ws = (s.lock l).waiters.erase a →
      ((s.lock l).state = .held a ∨ (s.lock l).state = .pledged a →
        (ws = [] → t.lock l = { state := .free, waiters := [] }) ∧
        ∀ w rest, ws = w :: rest → t.lock l = { state := .held w, waiters := rest } ∧ (t.st w).wait = none ∧
          (t.st w).lastWait = .granted ∧ (t.st w).pendingFlags.getLsbD 4 = true) ∧
      ((s.lock l).state ≠ .held a → (s.lock l).state ≠ .pledged a →
        (∀ d m, (s.lock l).state = .carried d → s.msg d = some m → m.dest ≠ a) →
        t.lock l = { state := (s.lock l).state, waiters := ws })) ∧
    t.supervisor = s.supervisor ∧ t.cellStore = s.cellStore ∧ t.burst = s.burst ∧ t.responseLimit = s.responseLimit ∧
    t.retryBudget = s.retryBudget ∧ t.burstLimit = s.burstLimit ∧ t.tickDiv = s.tickDiv ∧ t.tickCount = s.tickCount

/-- O13. At OFFLINE entry every held message ends DISCARDED in the order of the purge: its lock is handed off, it is confirmed, its count falls, it is freed. (from 04_station_queues_and_taking.md section 4.7, 09_station_lifecycle.md section 9.6, 01_the_message_store.md section 1.5, 05_message_end_and_confirmations.md section 5.1, 05_message_end_and_confirmations.md section 5.2, 05_message_end_and_confirmations.md section 5.3, 05_message_end_and_confirmations.md section 5.4, 06_locks.md section 6.5) -/
def Obligations.OfflineEntryDiscardsHeldMessages : Prop :=
  ∀ (a : StationId) (s : State), s.bown = false → (s.st a).state = .online → (s.st a).send = .idle → s.roomQueue = [] →
    ∀ held, held = (s.st a).queue 0 ++ (s.st a).queue 1 ++ (s.st a).queue 2 ++ (s.st a).queue 3 ++
      ((s.st a).readSlot.map (·.desc)).toList →
    held.Nodup → (∀ d ∈ held, (s.msg d).isSome = true) → ∃ t, exec (.retire a) s = .next t ∧
    t.freeDescs = s.freeDescs ++ held ∧
    t.freeCells = s.freeCells ++ (held.flatMap fun d => ((s.msg d).map (·.cells)).getD []) ∧
    (∀ d ∈ held, t.msg d = none) ∧ (t.st a).state = .offline ∧
    (∀ c, (t.chan c).count = (s.chan c).count - held.countP fun d => (s.msg d).any fun m => m.channel == c) ∧
    (∀ c, t.chan c = { s.chan c with count := (t.chan c).count }) ∧
    (∀ d m l ws, d ∈ held → s.msg d = some m → m.carriedLock = some l →
      (∀ e ∈ held, e ≠ d → ∀ n, s.msg e = some n → n.carriedLock ≠ some l) →
      ws = (s.lock l).waiters.filter (fun w => decide (w ≠ a ∧ (s.st w).state = .online)) →
      (ws = [] → t.lock l = { state := .free, waiters := [] }) ∧
      ∀ w rest, ws = w :: rest → (t.lock l).state = .held w ∧ (t.st w).wait = none ∧ (t.st w).lastWait = .granted ∧
        (t.st w).pendingFlags.getLsbD 4 = true) ∧
    (∀ b mine, b ≠ a → (s.st b).state = .online → (s.st b).confirms.length ≤ 16 →
      mine = held.filterMap (fun d => (s.msg d).bind fun m =>
        if m.confirm = true ∧ m.source = b then
          some ({ channel := m.channel, sequence := m.sequence, outcome := .discarded } : Confirmation)
        else none) →
      (t.st b).confirms = ((s.st b).confirms ++ mine).take 16 ∧
      (t.st b).confirmOverflow = ((s.st b).confirmOverflow || decide (16 < (s.st b).confirms.length + mine.length)) ∧
      (mine ≠ [] → (s.st b).confirms.length < 16 → (t.st b).pendingFlags.getLsbD 6 = true)) ∧
    ∀ b, b ≠ a → (s.st b).state ≠ .online →
      (t.st b).confirms = (s.st b).confirms ∧ (t.st b).confirmOverflow = (s.st b).confirmOverflow

/-- O14. A station that retires during its copy stays QUIESCING, its delivery abandoned (the gap begun: log entry 6), until the copy ends, and then is OFFLINE. (from 09_station_lifecycle.md section 9.5, 09_station_lifecycle.md section 9.6, 03_sending.md section 3.8, 07_ring_delivery.md section 7.5, 07_ring_delivery.md section 7.7, 10_bus_interface_and_register_window.md section 10.6, notes/assumptions/6.md) That a dropped request begins a gap too, that BRQ_REASSERT ends the gap in every engine state, and that RESET leaves none, is deduced, log entry 6. -/
def Obligations.RetireDuringCopyWaitsForCompletion : Prop :=
  (∀ (a : StationId) (p : Post) (d : DescId) (s : State), s.bown = false → (s.st a).state = .online →
    (s.st a).send = .copying p d → s.RoomQueueAgrees → ∃ t, exec (.retire a) s = .next t ∧
    t.st a = { s.st a with
      state := .quiescing, result := { code := .ok, command := 0x02 }, wait := none
      lastWait := if (s.st a).wait.isSome then .cancelled else (s.st a).lastWait
      ring := { (s.st a).ring with
        state := if s.delivering a = true ∧ (s.st a).ring.state = .disabling then .disabled else (s.st a).ring.state }
      pendingFlags := 0, inService := [] } ∧
    (∀ b, b ≠ a → t.st b = s.st b) ∧ t.delivering a = false ∧ t.channels = s.channels ∧ t.freeCells = s.freeCells ∧
    t.freeDescs = s.freeDescs ∧ t.roomQueue = s.roomQueue ∧ t.cellStore = s.cellStore ∧
    (s.delivering a = false → t.messages = s.messages ∧ t.engine = s.engine ∧ t.gap = s.gap ∧ t.rrPointer = s.rrPointer) ∧
    (∀ r m back, s.engine = .busWait r → r.station = a → s.msg r.desc = some m →
      back = put s.messages r.desc (some { m with state := .queued }) →
      t.gap = true ∧ (((s.st a).queue r.cls).head? = some r.desc → ((t.st a).queue r.cls).head? = some r.desc) ∧
      ((∀ b e, b ≠ a → r.desc ∉ (s.st b).queue e) → t.msg r.desc = some { m with state := .queued }) ∧
      ((∀ b, ¬ t.Servable b) → t.engine = .idle ∧ t.messages = back ∧ t.rrPointer = s.rrPointer) ∧
      ∀ (k : Nat) (b : StationId) (e : ClassId) (x : DescId) (more : List DescId) (n : Message), 1 ≤ k → k ≤ 8 →
        b.val = (s.rrPointer.val + k) % 8 → t.Servable b →
        (∀ (j : Nat) (b' : StationId), 1 ≤ j → j < k → b'.val = (s.rrPointer.val + j) % 8 → ¬ t.Servable b') →
        (∀ e' < e, (t.st b).queue e' = []) → (t.st b).queue e = x :: more → entry back x = some n →
        t.messages = put back x (some { n with state := .delivering }) ∧ t.rrPointer = b ∧ t.engine = .busWait
          { station := b, cls := e, desc := x, slot := (t.st b).ring.produced.toNat % (t.st b).ring.latchedSlots
            header0 := headerWord0 n, header1 := headerWord1 n, next := .header0, retries := 0 }) ∧
    ∀ l, (t.lock l).state = (s.lock l).state ∧
      (t.lock l).waiters = if (s.st a).wait.map (·.lock) = some l then (s.lock l).waiters.erase a else (s.lock l).waiters) ∧
  ∀ (a : StationId) (p : Post) (d : DescId) (s : State), (s.st a).state = .quiescing → (s.st a).send = .copying p d →
    (s.msg d).isSome = true → s.delivering a = false → ∃ t, exec (.copyCompletion a) s = .next t ∧
    (t.st a).state = .offline ∧ (t.st a).send = .idle ∧ (t.st a).sendResult.sequence = p.sequence ∧
    (t.st a).sendResult.outcome ≠ .none ∧ (∀ c, (t.st a).queue c = []) ∧ (t.st a).readSlot = none

/-- O15. RETIRE_STATION of an ONLINE station acts as its RETIRE, with the result in the supervisor's aperture; of any other it is refused NOT_ONLINE. (from 09_station_lifecycle.md section 9.5, 09_station_lifecycle.md section 9.3) -/
def Obligations.RetireStationActsAsRetire : Prop :=
  ∀ (a t : StationId) (s : State), s.bown = false → a = s.supervisor → (s.st a).state = .online →
    ((s.st t).state = .online → ∃ v, (∀ b, (v.st b).result = (s.st b).result) ∧
      exec (.retire t) s = .next (answered t 0x02 .ok v) ∧
      exec (.retireStation a t) s = .next (answered a 0x22 .ok v)) ∧
    ((s.st t).state ≠ .online → exec (.retireStation a t) s = .next (answered a 0x22 .notOnline s))

/-- O16. A POST that passes its checks, with the room queue empty and its need fitting, is accepted OK and its copy begins. (from 03_sending.md section 3.3, 01_the_message_store.md section 1.4, 01_the_message_store.md section 1.2, 02_channels.md section 2.4, 06_locks.md section 6.5) -/
def Obligations.PostIsGivenRoomAtOnce : Prop :=
  ∀ (a : StationId) (ch : ChannelId) (len : Fin 128) (pass : Bool) (l : LockId) (s : State) (d : DescId)
    (rest : List DescId), s.bown = false → (s.st a).state = .online → s.PostPasses a ch len pass l → s.roomQueue = [] →
    s.freeDescs = d :: rest → (len.val + 7) / 8 ≤ s.freeCells.length →
    exec (.post a ch len pass l) s = .next (answered a 0x03 .ok
      { s with
        stations := put s.stations a
          { s.st a with
            seqCounter := (s.st a).seqCounter + 1
            sendResult := { outcome := .none, sequence := (s.st a).seqCounter }
            send := .copying
              { channel := ch, length := len.val, cellsNeeded := (len.val + 7) / 8, dest := (s.chan ch).dest
                cls := (s.chan ch).cls, confirm := (s.chan ch).confirm, passLock := if pass then some l else none
                tag := (s.st a).sendTag, sequence := (s.st a).seqCounter } d }
        channels := put s.channels ch { s.chan ch with count := (s.chan ch).count + 1 }
        locks := if pass then put s.locks l { state := .pledged a, waiters := (s.lock l).waiters } else s.locks
        freeDescs := rest
        freeCells := s.freeCells.drop ((len.val + 7) / 8)
        messages := put s.messages d (some
          { source := a, channel := ch, dest := (s.chan ch).dest, cls := (s.chan ch).cls, length := len.val
            tag := (s.st a).sendTag, sequence := (s.st a).seqCounter, carriedLock := if pass then some l else none
            confirm := (s.chan ch).confirm, cells := s.freeCells.take ((len.val + 7) / 8), state := .filling }) })

/-- O17. A POST that passes its checks and finds no room waits PENDING on a HOLD channel, and is refused NO_ROOM on any other. (from 03_sending.md section 3.3, 01_the_message_store.md section 1.4, 01_the_message_store.md section 1.6, 02_channels.md section 2.4, 06_locks.md section 6.5) -/
def Obligations.PostThatFindsNoRoom : Prop :=
  ∀ (a : StationId) (ch : ChannelId) (len : Fin 128) (pass : Bool) (l : LockId) (s : State),
    s.bown = false → (s.st a).state = .online → s.PostPasses a ch len pass l →
    (s.roomQueue ≠ [] ∨ s.freeDescs = [] ∨ s.freeCells.length < (len.val + 7) / 8) →
    ((s.chan ch).hold = true → exec (.post a ch len pass l) s = .next (answered a 0x03 .pending
      { s with
        stations := put s.stations a
          { s.st a with
            seqCounter := (s.st a).seqCounter + 1
            sendResult := { outcome := .none, sequence := (s.st a).seqCounter }
            send := .awaitRoom
              { channel := ch, length := len.val, cellsNeeded := (len.val + 7) / 8, dest := (s.chan ch).dest
                cls := (s.chan ch).cls, confirm := (s.chan ch).confirm, passLock := if pass then some l else none
                tag := (s.st a).sendTag, sequence := (s.st a).seqCounter } }
        channels := put s.channels ch { s.chan ch with count := (s.chan ch).count + 1 }
        locks := if pass then put s.locks l { state := .pledged a, waiters := (s.lock l).waiters } else s.locks
        roomQueue := s.roomQueue ++
          [{ station := a, channel := ch, cellsNeeded := (len.val + 7) / 8
             timer := if (s.st a).roomWaitLimit = 0 then none else some (s.st a).roomWaitLimit.toNat }] })) ∧
    ((s.chan ch).hold = false → exec (.post a ch len pass l) s = .next (answered a 0x03 .noRoom s))

/-- O18. A POST is refused by the first of its acceptance checks that fails, and then changes nothing but RESULT. (from 03_sending.md section 3.3) -/
def Obligations.PostRefusedByItsFirstFailingCheck : Prop :=
  ∀ (a : StationId) (ch : ChannelId) (len : Fin 128) (pass : Bool) (l : LockId) (s : State),
    s.bown = false → (s.st a).state = .online → ∀ refusal,
    refusal = (if (s.st a).send ≠ .idle then .busy
      else if 64 < len.val then .badOperand
      else if (s.chan ch).state = .closed then .badChannel
      else if (s.chan ch).mask.getLsbD a.val = false then .notPermitted
      else if (s.st (s.chan ch).dest).state ≠ .online then .destOffline
      else if (s.chan ch).limit.val ≤ (s.chan ch).count then .channelFull
      else if (s.chan ch).pass = false then .passNotAllowed
      else if (s.lock l).state = .pledged a then .lockPledged
      else .lockNotOwned) →
    ¬ s.PostPasses a ch len pass l → exec (.post a ch len pass l) s = .next (answered a 0x03 refusal s)

/-- O19. A room wait ends CANCELLED by CANCEL_POST and TIMEOUT by its timer; the new head is examined when the entry was the head. (from 03_sending.md section 3.4, 01_the_message_store.md section 1.6, notes/assumptions/5.md) That a timer's expiry is a command of its own, which does nothing before it is due, is the model's choice, log entry 5. -/
def Obligations.RoomWaitEndsWithoutGrant : Prop :=
  (∀ (a : StationId) (p : Post) (pre post : List RoomEntry) (e : RoomEntry) (s : State) (ended : SendOutcome → Bool → State),
    (s.st a).send = .awaitRoom p → s.roomQueue = pre ++ e :: post → e.station = a →
    (∀ x ∈ pre ++ post, x.station ≠ a) →
    (∀ o sent, ended o sent =
      { s with
        roomQueue := pre ++ post
        channels := put s.channels p.channel { s.chan p.channel with count := (s.chan p.channel).count - 1 }
        locks := match p.passLock with
          | some l => put s.locks l { state := .held a, waiters := (s.lock l).waiters }
          | none => s.locks
        stations := put s.stations a
          (let r := { s.st a with send := .idle, sendResult := { outcome := o, sequence := p.sequence } }
           if sent then r.raised 5 else r) }) →
    (s.bown = false → (s.st a).state = .online → exec (.cancelPost a) s =
      .next (answered a 0x04 .ok (if pre = [] then examine (ended .cancelled false) else ended .cancelled false))) ∧
    (e.timer = some 0 → exec (.roomWaitTimerExpiry a) s =
      .next (if pre = [] then examine (ended .timeout true) else ended .timeout true))) ∧
  ∀ (a : StationId) (s : State),
    ((∀ e ∈ s.roomQueue, e.station = a → e.timer ≠ some 0) → exec (.roomWaitTimerExpiry a) s = .next s) ∧
    (s.bown = false → (s.st a).state = .online →
      (∀ p d, (s.st a).send = .copying p d → exec (.cancelPost a) s = .next (answered a 0x04 .busy s)) ∧
      ((s.st a).send = .idle → exec (.cancelPost a) s = .next (answered a 0x04 .notWaiting s)))

/-- O20. A staging write is stored in send state IDLE, in any station state, and is otherwise recorded as STAGING_COLLISION. (from 03_sending.md section 3.1, 08_notification_and_acknowledge.md section 8.7) -/
def Obligations.StagingWriteStoresOrCollides : Prop :=
  ∀ (a : StationId) (k : Fin 64) (w : Word) (s : State), s.bown = false →
    ((s.st a).send = .idle →
      exec (.stagingWrite a k w) s = .next (written (s.modSt a fun r => { r with staging := put r.staging k w }))) ∧
    ((s.st a).send ≠ .idle →
      exec (.stagingWrite a k w) s =
        .next (written (s.modSt a (StationRec.faulted .stagingCollision (BitVec.ofNat 32 k.val)))))

/-- O21. When both late checks pass, copy completion appends the message QUEUED to its class queue, and the engine may start. (from 03_sending.md section 3.6, 04_station_queues_and_taking.md section 4.2, 06_locks.md section 6.5, 07_ring_delivery.md section 7.5, notes/assumptions/4.md) That an event whose condition does not hold changes nothing is deduced, log entry 4. -/
def Obligations.CopyCompletionEnqueues : Prop :=
  (∀ (a : StationId) (p : Post) (d : DescId) (m : Message) (s : State), (s.st a).send = .copying p d → s.msg d = some m →
    (s.st a).state ≠ .quiescing → (s.st m.dest).state = .online →
    ((s.st m.dest).queue m.cls).length < ((s.st m.dest).limit m.cls).val →
    exec (.copyCompletion a) s = .next (startIfIdle
      ((({ s with
          cellStore := copyPayload m.cells m.length (s.st a).staging s.cellStore
          messages := put s.messages d (some { m with state := .queued })
          locks := match m.carriedLock with
            | some l => put s.locks l { state := .carried d, waiters := (s.lock l).waiters }
            | none => s.locks } : State).modSt m.dest fun r =>
          let q := r.setQueue m.cls (r.queue m.cls ++ [d])
          if r.ring.state = .disabled then q.raised (srcArrive m.cls) else q).modSt a fun r =>
        StationRec.raised 5 { r with send := .idle, sendResult := { outcome := .ok, sequence := p.sequence } }))) ∧
  ∀ (a : StationId) (s : State), (s.st a).send.isCopying = false → exec (.copyCompletion a) s = .next s

/-- O22. At copy completion payload word j of the message is staged word j, the rest of its last cell is 0, and no other cell word changes. (from 01_the_message_store.md section 1.2, 03_sending.md section 3.5) -/
def Obligations.CopyWritesStagedWords : Prop :=
  ∀ (a : StationId) (p : Post) (d : DescId) (m : Message) (s : State), (s.st a).send = .copying p d → s.msg d = some m →
    m.cells.Nodup → m.length ≤ 64 → m.cells.length = (m.length + 7) / 8 → CellStore.wf s.cellStore = true →
    ∃ t, exec (.copyCompletion a) s = .next t ∧
    (∀ (j : Fin 64) (c : CellId), m.cells[j.val / 8]? = some c →
      CellStore.read t.cellStore (8 * c.val + j.val % 8) = if j.val < m.length then entry (s.st a).staging j else 0) ∧
    (∀ k, (∀ c ∈ m.cells, k / 8 ≠ c.val) → CellStore.read t.cellStore k = CellStore.read s.cellStore k) ∧
    CellStore.wf t.cellStore = true

/-- O23. When a late check fails, the message is freed, the lock returns to the sender, and SEND_RESULT says DEST_OFFLINE or QUEUE_FULL. (from 03_sending.md section 3.6, 05_message_end_and_confirmations.md section 5.6, 01_the_message_store.md section 1.5) -/
def Obligations.CopyCompletionFailsItsLateCheck : Prop :=
  ∀ (a : StationId) (p : Post) (d : DescId) (m : Message) (s : State) (failure : SendOutcome),
    (s.st a).send = .copying p d → s.msg d = some m → (s.st a).state ≠ .quiescing →
    ((s.st m.dest).state ≠ .online ∧ failure = .destOffline ∨
      (s.st m.dest).state = .online ∧ ((s.st m.dest).limit m.cls).val ≤ ((s.st m.dest).queue m.cls).length ∧
        failure = .queueFull) →
    exec (.copyCompletion a) s = .next (startIfIdle
      ((examine
        { s with
          cellStore := copyPayload m.cells m.length (s.st a).staging s.cellStore
          locks := match m.carriedLock with
            | some l => put s.locks l { state := .held m.source, waiters := (s.lock l).waiters }
            | none => s.locks
          channels := put s.channels m.channel { s.chan m.channel with count := (s.chan m.channel).count - 1 }
          freeDescs := s.freeDescs ++ [d]
          freeCells := s.freeCells ++ m.cells
          messages := put s.messages d none }).modSt a fun r =>
        StationRec.raised 5 { r with send := .idle, sendResult := { outcome := failure, sequence := p.sequence } }))

/-- O24. Examination grants the head of the room queue while its need fits, and leaves the list as it is when it does not. (from 01_the_message_store.md section 1.6, 01_the_message_store.md section 1.4, 03_sending.md section 3.4) -/
def Obligations.RoomQueueExamination : Prop :=
  ∀ (s : State),
    (s.roomQueue = [] → examine s = s) ∧
    (∀ e rest, s.roomQueue = e :: rest → (s.freeDescs = [] ∨ s.freeCells.length < e.cellsNeeded) → examine s = s) ∧
    ∀ e rest p d ds, s.roomQueue = e :: rest → s.freeDescs = d :: ds → e.cellsNeeded ≤ s.freeCells.length →
      (s.st e.station).send = .awaitRoom p → p.cellsNeeded = e.cellsNeeded →
      examine s = examine
        { s with
          roomQueue := rest
          freeDescs := ds
          freeCells := s.freeCells.drop e.cellsNeeded
          messages := put s.messages d (some
            { source := e.station, channel := p.channel, dest := p.dest, cls := p.cls, length := p.length, tag := p.tag
              sequence := p.sequence, carriedLock := p.passLock, confirm := p.confirm
              cells := s.freeCells.take e.cellsNeeded, state := .filling })
          stations := put s.stations e.station { s.st e.station with send := .copying p d } }

/-- O25. The need of a post is one descriptor and its length over 8 rounded up in cells, and fits when both free counts allow it. (from R3) -/
def Obligations.NeedAndFit : Prop :=
  (∀ L : Nat, L ≤ 64 → L ≤ 8 * cellsFor L ∧ 8 * cellsFor L < L + 8) ∧
  (∀ (s : State) (L : Nat), s.fits (cellsFor L) = true ↔ 1 ≤ s.freeDescs.length ∧ cellsFor L ≤ s.freeCells.length) ∧
  cellsFor 0 = 0 ∧
  (∀ L, 1 ≤ L → L ≤ 8 → cellsFor L = 1) ∧ (∀ L, 9 ≤ L → L ≤ 16 → cellsFor L = 2) ∧
  (∀ L, 17 ≤ L → L ≤ 24 → cellsFor L = 3) ∧ (∀ L, 25 ≤ L → L ≤ 32 → cellsFor L = 4) ∧
  (∀ L, 33 ≤ L → L ≤ 40 → cellsFor L = 5) ∧ (∀ L, 41 ≤ L → L ≤ 48 → cellsFor L = 6) ∧
  (∀ L, 49 ≤ L → L ≤ 56 → cellsFor L = 7) ∧ (∀ L, 57 ≤ L → L ≤ 64 → cellsFor L = 8)

/-- O26. TAKE moves the head of the named class to the read slot and passes its lock; TAKE_ANY does so for the most urgent non-empty class. (from 04_station_queues_and_taking.md section 4.4, 06_locks.md section 6.5, 06_locks.md section 6.4) -/
def Obligations.TakeAndTakeAny : Prop :=
  ∀ (a : StationId) (c : ClassId) (s : State), s.bown = false → (s.st a).state = .online →
    ((s.st a).ring.state ≠ .disabled → exec (.take a c) s = .next (answered a 0x05 .ringMode s) ∧
      exec (.takeAny a) s = .next (answered a 0x06 .ringMode s)) ∧
    ((s.st a).ring.state = .disabled → (s.st a).readSlot.isSome = true →
      exec (.take a c) s = .next (answered a 0x05 .holding s) ∧ exec (.takeAny a) s = .next (answered a 0x06 .holding s)) ∧
    ((s.st a).ring.state = .disabled → (s.st a).readSlot = none →
      ((s.st a).queue c = [] → exec (.take a c) s = .next (answered a 0x05 .empty s)) ∧
      ((∀ c', (s.st a).queue c' = []) → exec (.takeAny a) s = .next (answered a 0x06 .empty s)) ∧
      ∀ d rest m u, (s.st a).queue c = d :: rest → s.msg d = some m →
        u = { s with
          messages := put s.messages d (some { m with state := .reading, carriedLock := none })
          locks := match m.carriedLock with
            | none => s.locks
            | some l => put s.locks l
                { state := .held a
                  waiters := if (s.st a).wait.map (·.lock) = some l then (s.lock l).waiters.erase a
                             else (s.lock l).waiters }
          stations := put s.stations a
            (let r := { (s.st a).setQueue c rest with
                readSlot := some { desc := d, header0 := headerWord0 m, header1 := headerWord1 m } }
             if m.carriedLock ≠ none ∧ (s.st a).wait.map (·.lock) = m.carriedLock then
               StationRec.raised 4 { r with wait := none, lastWait := .granted }
             else r) } →
        exec (.take a c) s = .next (answered a 0x05 .ok u) ∧
        ((∀ c' < c, (s.st a).queue c' = []) → exec (.takeAny a) s = .next (answered a 0x06 .ok u)))

/-- O27. RELEASE empties the read slot and ends its message RELEASED: confirmation, count, room and examination, in that order. (from 04_station_queues_and_taking.md section 4.4, 05_message_end_and_confirmations.md section 5.1, 05_message_end_and_confirmations.md section 5.2, 01_the_message_store.md section 1.5) -/
def Obligations.ReleaseEndsTheMessageRead : Prop :=
  ∀ (a : StationId) (s : State), s.bown = false → (s.st a).state = .online →
    ((s.st a).readSlot = none → exec (.release a) s = .next (answered a 0x07 .notHolding s)) ∧
    ∀ slot m u, (s.st a).readSlot = some slot → s.msg slot.desc = some m → m.carriedLock = none →
      u = confirmEnd .released m (s.modSt a fun r => { r with readSlot := none }) →
      exec (.release a) s = .next (answered a 0x07 .ok (examine
        { u with
          channels := put s.channels m.channel { s.chan m.channel with count := (s.chan m.channel).count - 1 }
          freeDescs := s.freeDescs ++ [slot.desc]
          freeCells := s.freeCells ++ m.cells
          messages := put s.messages slot.desc none }))

/-- O28. A message's end disposes of its lock, decides its confirmation, lowers its count and frees it, in that order; a full list drops the confirmation. (from 05_message_end_and_confirmations.md section 5.1, 05_message_end_and_confirmations.md section 5.2, 05_message_end_and_confirmations.md section 5.3, 05_message_end_and_confirmations.md section 5.4, 06_locks.md section 6.5, 01_the_message_store.md section 1.5) -/
def Obligations.MessageEndsInItsFourSteps : Prop :=
  (∀ (l : LockId) (r : StationId) (s : State),
    ((s.st r).wait.map (·.lock) = some l → passLock l r s =
      (s.setLock l { state := .held r, waiters := (s.lock l).waiters.erase r }).modSt r fun x =>
        StationRec.raised 4 { x with wait := none, lastWait := .granted }) ∧
    ((s.st r).wait.map (·.lock) ≠ some l →
      passLock l r s = s.setLock l { state := .held r, waiters := (s.lock l).waiters })) ∧
  (∀ (o : EndOutcome) (d : DescId) (m : Message) (s v u : State), s.msg d = some m →
    v = (match o, m.carriedLock with
      | .delivered, some l => passLock l m.dest s
      | .discarded, some l => handoff l s
      | _, _ => s) →
    u = confirmEnd o m v →
    endMessage o d s = examine
      { u with
        channels := put s.channels m.channel { s.chan m.channel with count := (s.chan m.channel).count - 1 }
        freeDescs := s.freeDescs ++ [d]
        freeCells := s.freeCells ++ m.cells
        messages := put s.messages d none }) ∧
  ∀ (o : EndOutcome) (m : Message) (s : State),
    (m.confirm = false ∨ (s.st m.source).state ≠ .online → confirmEnd o m s = s) ∧
    (m.confirm = true → (s.st m.source).state = .online → (s.st m.source).confirms.length < 16 →
      confirmEnd o m s = s.modSt m.source fun r => StationRec.raised 6
        { r with confirms := r.confirms ++ [{ channel := m.channel, sequence := m.sequence, outcome := o }] }) ∧
    (m.confirm = true → (s.st m.source).state = .online → 16 ≤ (s.st m.source).confirms.length →
      confirmEnd o m s = s.modSt m.source fun r =>
        StationRec.faulted .confirmOverflow (BitVec.ofNat 32 m.channel.val) { r with confirmOverflow := true })

/-- O29. SET_QLIMIT sets the class's limit when it is 1 to 255 and not below the length, and is otherwise refused with the limit unchanged. (from R61) -/
def Obligations.SetQlimitReplacesTheLimit : Prop :=
  ∀ (a : StationId) (c : ClassId) (limit : Fin 256) (s : State), s.bown = false →
    ((s.st a).state ≠ .online → exec (.setQlimit a c limit) s = .next (answered a 0x0D .notOnline s)) ∧
    ((s.st a).state = .online →
      (limit.val = 0 → exec (.setQlimit a c limit) s = .next (answered a 0x0D .badOperand s)) ∧
      (1 ≤ limit.val → limit.val < ((s.st a).queue c).length →
        exec (.setQlimit a c limit) s = .next (answered a 0x0D .inUse s)) ∧
      (1 ≤ limit.val → ((s.st a).queue c).length ≤ limit.val →
        exec (.setQlimit a c limit) s =
          .next (answered a 0x0D .ok (s.modSt a fun r => { r with limits := put r.limits c limit }))))

/-- O30. POP_CONFIRM removes the head of the confirmation list, and is refused EMPTY on an empty list. (from R89) -/
def Obligations.PopConfirmRemovesTheHead : Prop :=
  ∀ (a : StationId) (s : State), s.bown = false →
    ((s.st a).state ≠ .online → exec (.popConfirm a) s = .next (answered a 0x0C .notOnline s)) ∧
    ((s.st a).state = .online →
      (∀ e rest, (s.st a).confirms = e :: rest →
        exec (.popConfirm a) s = .next (answered a 0x0C .ok (s.modSt a fun r => { r with confirms := rest }))) ∧
      ((s.st a).confirms = [] → exec (.popConfirm a) s = .next (answered a 0x0C .empty s)))

/-- O31. ACQUIRE and TRY_LOCK take a FREE lock, answer ALREADY_HELD for an own one, and else wait or answer BUSY, or LOCK_BUSY. (from 06_locks.md section 6.3, 06_locks.md section 6.2) -/
def Obligations.AcquireAndTryLock : Prop :=
  ∀ (a : StationId) (l : LockId) (s : State), s.bown = false → (s.st a).state = .online →
    ((s.lock l).state = .free →
      exec (.acquire a l) s =
        .next (answered a 0x08 .ok (s.setLock l { state := .held a, waiters := (s.lock l).waiters })) ∧
      exec (.tryLock a l) s =
        .next (answered a 0x09 .ok (s.setLock l { state := .held a, waiters := (s.lock l).waiters }))) ∧
    ((s.lock l).state = .held a ∨ (s.lock l).state = .pledged a →
      exec (.acquire a l) s = .next (answered a 0x08 .alreadyHeld s) ∧
      exec (.tryLock a l) s = .next (answered a 0x09 .alreadyHeld s)) ∧
    ((s.lock l).state ≠ .free → (s.lock l).state ≠ .held a → (s.lock l).state ≠ .pledged a →
      exec (.tryLock a l) s = .next (answered a 0x09 .lockBusy s) ∧
      ((s.st a).wait.isSome = true → exec (.acquire a l) s = .next (answered a 0x08 .busy s)) ∧
      ((s.st a).wait = none → exec (.acquire a l) s = .next (answered a 0x08 .pending
        ((s.setLock l { state := (s.lock l).state, waiters := (s.lock l).waiters ++ [a] }).modSt a fun r =>
          { r with
            wait := some { lock := l, timer := if r.lockWaitLimit = 0 then none else some r.lockWaitLimit.toNat }
            lastWait := .none }))))

/-- O32. A handoff gives the lock to the first ONLINE waiter, whose wait ends GRANTED, drops waiters that are not ONLINE, and else frees it. (from 06_locks.md section 6.4) -/
def Obligations.LockHandoff : Prop :=
  ∀ (l : LockId) (s : State),
    ((s.lock l).waiters = [] → handoff l s = s.setLock l { state := .free, waiters := [] }) ∧
    ∀ w rest, (s.lock l).waiters = w :: rest →
      ((s.st w).state = .online →
        handoff l s = (s.setLock l { state := .held w, waiters := rest }).modSt w fun r =>
          StationRec.raised 4 { r with wait := none, lastWait := .granted }) ∧
      ((s.st w).state ≠ .online →
        handoff l s = handoff l
          ((s.setLock l { state := (s.lock l).state, waiters := rest }).modSt w fun r =>
            { r with wait := none, lastWait := .cancelled }))

/-- O33. RELEASE_LOCK by the holder and FORCE_RELEASE by the supervisor hand the lock off; the latter first records LOCK_REVOKED for the owner. (from 06_locks.md section 6.3, 06_locks.md section 6.6) -/
def Obligations.ReleaseLockAndForceRelease : Prop :=
  ∀ (a : StationId) (l : LockId) (s : State), s.bown = false → (s.st a).state = .online →
    ((s.lock l).state = .held a → exec (.releaseLock a l) s = .next (answered a 0x0A .ok (handoff l s))) ∧
    ((s.lock l).state = .pledged a → exec (.releaseLock a l) s = .next (answered a 0x0A .lockPledged s)) ∧
    ((s.lock l).state ≠ .held a → (s.lock l).state ≠ .pledged a →
      exec (.releaseLock a l) s = .next (answered a 0x0A .lockNotOwned s)) ∧
    (a = s.supervisor →
      (∀ o, (s.lock l).state = .held o → exec (.forceRelease a l) s = .next (answered a 0x23 .ok
        (handoff l (s.modSt o (StationRec.faulted .lockRevoked (BitVec.ofNat 32 l.val)))))) ∧
      (∀ o, (s.lock l).state = .pledged o → exec (.forceRelease a l) s = .next (answered a 0x23 .lockPledged s)) ∧
      (∀ d, (s.lock l).state = .carried d → exec (.forceRelease a l) s = .next (answered a 0x23 .lockPledged s)) ∧
      ((s.lock l).state = .free → exec (.forceRelease a l) s = .next (answered a 0x23 .lockNotOwned s)))

/-- O34. CANCEL_WAIT ends a lock wait CANCELLED without LOCK, its timer ends it TIMEOUT with LOCK; the lock's state stays. (from 06_locks.md section 6.3, 06_locks.md section 6.4, notes/assumptions/5.md) That a timer's expiry is a command of its own, which does nothing before it is due, is the model's choice, log entry 5. -/
def Obligations.LockWaitEndsByCancelOrTimer : Prop :=
  ∀ (a : StationId) (s : State),
    (∀ w, (s.st a).wait = some w →
      (s.bown = false → (s.st a).state = .online → exec (.cancelWait a) s = .next (answered a 0x0B .ok
        ((s.setLock w.lock { state := (s.lock w.lock).state, waiters := (s.lock w.lock).waiters.erase a }).modSt a fun r =>
          { r with wait := none, lastWait := .cancelled }))) ∧
      (w.timer = some 0 → exec (.waitTimerExpiry a) s = .next
        ((s.setLock w.lock { state := (s.lock w.lock).state, waiters := (s.lock w.lock).waiters.erase a }).modSt a fun r =>
          StationRec.raised 4 { r with wait := none, lastWait := .timeout })) ∧
      (w.timer ≠ some 0 → exec (.waitTimerExpiry a) s = .next s)) ∧
    ((s.st a).wait = none → exec (.waitTimerExpiry a) s = .next s ∧
      (s.bown = false → (s.st a).state = .online → exec (.cancelWait a) s = .next (answered a 0x0B .notWaiting s)))

/-- O35. OPEN_CHANNEL writes the routing of a CLOSED entry with count 0 from its operands and SUP_OPERAND, and is else refused. (from 02_channels.md section 2.2) -/
def Obligations.OpenChannelWritesTheEntry : Prop :=
  ∀ (a : StationId) (ch : ChannelId) (dest : StationId) (c : ClassId) (hold confirm pass : Bool) (limit : Fin 256)
    (s : State), s.bown = false → a = s.supervisor → (s.st a).state = .online →
    (limit.val = 0 ∨ 255 < (s.st a).supOperand.toNat →
      exec (.openChannel a ch dest c hold confirm pass limit) s = .next (answered a 0x20 .badOperand s)) ∧
    (1 ≤ limit.val → (s.st a).supOperand.toNat ≤ 255 →
      ((s.chan ch).state = .opened ∨ (s.chan ch).count ≠ 0 →
        exec (.openChannel a ch dest c hold confirm pass limit) s = .next (answered a 0x20 .inUse s)) ∧
      ((s.chan ch).state = .closed → (s.chan ch).count = 0 →
        exec (.openChannel a ch dest c hold confirm pass limit) s = .next (answered a 0x20 .ok (s.modChan ch fun _ =>
          { state := .opened, dest, cls := c, mask := (s.st a).supOperand.extractLsb' 0 8, hold, confirm, pass, limit
            count := 0 }))))

/-- O36. CLOSE_CHANNEL closes an OPEN entry and ends CLOSED every post waiting on it; a CLOSED entry refuses it BAD_CHANNEL. (from 02_channels.md section 2.3, 01_the_message_store.md section 1.6, 03_sending.md section 3.4) -/
def Obligations.CloseChannelEndsItsRoomWaits : Prop :=
  ∀ (a : StationId) (ch : ChannelId) (s : State), s.bown = false → a = s.supervisor → (s.st a).state = .online →
    ((s.chan ch).state = .closed → exec (.closeChannel a ch) s = .next (answered a 0x21 .badChannel s)) ∧
    ((s.chan ch).state = .opened → s.RoomQueueAgrees → ∃ t u,
      exec (.closeChannel a ch) s = .next (answered a 0x21 .ok t) ∧
      (s.roomQueue.head?.map (·.channel) = some ch → t = examine u) ∧
      (s.roomQueue.head?.map (·.channel) ≠ some ch → t = u) ∧
      u = { s with stations := u.stations, channels := u.channels, locks := u.locks, roomQueue := u.roomQueue } ∧
      u.roomQueue = s.roomQueue.filter (fun e => e.channel ≠ ch) ∧
      u.chan ch = { s.chan ch with
        state := .closed, count := (s.chan ch).count - s.roomQueue.countP fun e => e.channel == ch } ∧
      (∀ c, c ≠ ch → u.chan c = s.chan c) ∧
      (∀ e ∈ s.roomQueue, ∀ p, e.channel = ch → (s.st e.station).send = .awaitRoom p →
        u.st e.station = StationRec.raised 5
          { s.st e.station with send := .idle, sendResult := { outcome := .closed, sequence := p.sequence } } ∧
        ∀ l, p.passLock = some l → u.lock l = { state := .held e.station, waiters := (s.lock l).waiters } ∨
          ∃ f ∈ s.roomQueue, f.channel = ch ∧ f.station ≠ e.station ∧ ∃ q, (s.st f.station).send = .awaitRoom q ∧
            q.passLock = some l) ∧
      (∀ b, (∀ e ∈ s.roomQueue, e.station = b → e.channel ≠ ch) → u.st b = s.st b) ∧
      ∀ l, (∀ e ∈ s.roomQueue, e.channel = ch → ∀ p, (s.st e.station).send = .awaitRoom p → p.passLock ≠ some l) →
        u.lock l = s.lock l)

/-- O37. ENABLE_RING latches a valid setup and makes the ring ACTIVE; RESUME_RING makes a FAULTED ring follow its fill; the engine may start. (from 07_ring_delivery.md section 7.2, 07_ring_delivery.md section 7.4, 07_ring_delivery.md section 7.5) -/
def Obligations.EnableAndResumeRing : Prop :=
  ∀ (a : StationId) (s : State) (g : Ring), s.bown = false → (s.st a).state = .online → g = (s.st a).ring →
    (g.state ≠ .disabled → exec (.enableRing a) s = .next (answered a 0x0E .inUse s)) ∧
    (g.state = .disabled →
      (8 ∣ g.base.toNat ∧ g.slots.toNat ∈ [4, 8, 16, 32, 64, 128, 256] ∧
        g.base.toNat + g.slots.toNat * 264 ≤ 0x100000000 ∧ 4 ∣ g.indexAddr.toNat ∧
        (g.indexAddr.toNat < g.base.toNat ∨ g.base.toNat + g.slots.toNat * 264 ≤ g.indexAddr.toNat) →
        exec (.enableRing a) s = .next (answered a 0x0E .ok (startIfIdle (s.modSt a fun r =>
          { r with ring := { g with
              latchedBase := g.base, latchedSlots := g.slots.toNat, latchedIndex := g.indexAddr
              produced := 0, consumed := 0, state := .active } })))) ∧
      (¬ (8 ∣ g.base.toNat ∧ g.slots.toNat ∈ [4, 8, 16, 32, 64, 128, 256] ∧
        g.base.toNat + g.slots.toNat * 264 ≤ 0x100000000 ∧ 4 ∣ g.indexAddr.toNat ∧
        (g.indexAddr.toNat < g.base.toNat ∨ g.base.toNat + g.slots.toNat * 264 ≤ g.indexAddr.toNat)) →
        exec (.enableRing a) s = .next (answered a 0x0E .ringInvalid s))) ∧
    (g.state = .faulted → exec (.resumeRing a) s = .next (answered a 0x10 .ok (startIfIdle (s.modSt a fun r =>
      { r with ring := { g with
          state := if (g.produced - g.consumed).toNat = g.latchedSlots then .stalled else .active } })))) ∧
    (g.state ≠ .faulted → exec (.resumeRing a) s = .next (answered a 0x10 .notWaiting s))

/-- O38. DISABLE_RING makes the ring DISABLED at once with its ARRIVE sources, or DISABLING while a delivery for the station is in progress. (from 07_ring_delivery.md section 7.4, 04_station_queues_and_taking.md section 4.2) -/
def Obligations.DisableRingAtOnceOrThroughDisabling : Prop :=
  ∀ (a : StationId) (s : State), s.bown = false → (s.st a).state = .online →
    ((s.st a).ring.state = .active → s.delivering a = true → exec (.disableRing a) s =
      .next (answered a 0x0F .ok (s.modSt a fun r => { r with ring := { r.ring with state := .disabling } }))) ∧
    ((s.st a).ring.state = .active ∧ s.delivering a = false ∨ (s.st a).ring.state = .stalled ∨
        (s.st a).ring.state = .faulted →
      exec (.disableRing a) s = .next (answered a 0x0F .ok (s.modSt a StationRec.ringOff))) ∧
    ((s.st a).ring.state = .disabling → exec (.disableRing a) s = .next (answered a 0x0F .busy s)) ∧
    ((s.st a).ring.state = .disabled → exec (.disableRing a) s = .next (answered a 0x0F .notWaiting s))

/-- O39. A RING_CONSUMED write is accepted within S, or S - 1 during a delivery for the station, and is else recorded as BAD_CONSUMED. (from 07_ring_delivery.md section 7.3, 07_ring_delivery.md section 7.5) -/
def Obligations.RingConsumedIsJudgedByTheBound : Prop :=
  ∀ (a : StationId) (w : Word) (s : State) (v : Half) (g : Ring) (bound : Nat), s.bown = false → v = w.extractLsb' 0 16 →
    g = (s.st a).ring → bound = (if s.delivering a then g.latchedSlots - 1 else g.latchedSlots) →
    (g.state = .disabled → exec (.ringConsumed a w) s = .next (written s)) ∧
    (g.state ≠ .disabled → (g.produced - v).toNat ≤ bound →
      exec (.ringConsumed a w) s = .next (written (startIfIdle (s.modSt a fun r =>
        { r with ring := { g with
            consumed := v
            state := if g.state = .active ∨ g.state = .stalled then
                (if (g.produced - v).toNat = g.latchedSlots then .stalled else .active)
              else g.state } })))) ∧
    (g.state ≠ .disabled → bound < (g.produced - v).toNat →
      exec (.ringConsumed a w) s =
        .next (written (s.modSt a (StationRec.faulted .badConsumed (BitVec.ofNat 32 v.toNat)))))

/-- O40. An IDLE engine starts the head of the most urgent class of the first eligible station behind the round-robin pointer. (from 07_ring_delivery.md section 7.5) -/
def Obligations.EngineStartsTheFirstEligibleStation : Prop :=
  ∀ (s : State),
    (s.engine ≠ .idle → startIfIdle s = s) ∧
    ((∀ a, ¬ s.Servable a) → startIfIdle s = s) ∧
    ∀ (k : Nat) (a : StationId) (c : ClassId) (d : DescId) (rest : List DescId) (m : Message), s.engine = .idle →
      1 ≤ k → k ≤ 8 → a.val = (s.rrPointer.val + k) % 8 → s.Servable a →
      (∀ (j : Nat) (b : StationId), 1 ≤ j → j < k → b.val = (s.rrPointer.val + j) % 8 → ¬ s.Servable b) →
      (∀ c' < c, (s.st a).queue c' = []) → (s.st a).queue c = d :: rest → s.msg d = some m →
      startIfIdle s =
        { s with
          messages := put s.messages d (some { m with state := .delivering })
          rrPointer := a
          engine := .busWait
            { station := a, cls := c, desc := d, slot := (s.st a).ring.produced.toNat % (s.st a).ring.latchedSlots
              header0 := headerWord0 m, header1 := headerWord1 m, next := .header0, retries := 0 } }

/-- O41. The bus pins follow the engine state; a grant is sampled in BUS_WAIT outside the gap alone; a RETRY within the budget goes back there and begins a gap. (from 07_ring_delivery.md section 7.5, 07_ring_delivery.md section 7.6, 10_bus_interface_and_register_window.md section 10.6, notes/assumptions/4.md, notes/assumptions/6.md) That an event whose condition does not hold changes nothing is deduced, log entry 4; that a dropped request begins a gap too, that BRQ_REASSERT ends the gap in every engine state, and that RESET leaves none, is deduced, log entry 6. -/
def Obligations.BusGrantAndRetry : Prop :=
  (∀ (s : State),
    (∀ d, s.engine = .busWait d → s.gap = false → exec .busGrant s = .next (issueWrite d { s with burst := 0 })) ∧
    ((∀ d, s.engine ≠ .busWait d) ∨ s.gap = true → exec .busGrant s = .next s) ∧
    exec .brqReassert s = .next { s with gap := false } ∧
    (∀ d c, s.engine = .transfer d c → d.retries + 1 ≤ s.retryBudget →
      exec .respRetry s = .next { s with engine := .busWait { d with retries := d.retries + 1 }, gap := true }) ∧
    (s.bown = false → exec .respRetry s = .next s ∧ exec .respComplete s = .next s ∧ exec .respFault s = .next s ∧
      exec .responseLimitExpiry s = .next s) ∧
    (s.engine = .idle → s.brq = false ∧ s.bown = false ∧ s.masterCycle = none) ∧
    (∀ d, s.engine = .busWait d → s.brq = !s.gap ∧ s.bown = false ∧ s.masterCycle = none) ∧
    ∀ d c, s.engine = .transfer d c → s.brq = true ∧ s.bown = true ∧
      s.masterCycle = some { a := c.addr.extractLsb' 2 30, d := c.data, be := 15, rw := false }) ∧
  decodeResponse 0 = none ∧ decodeResponse 1 = some .respComplete ∧ decodeResponse 2 = some .respRetry ∧
    decodeResponse 3 = some .respFault

/-- O42. A delivery of length L is L + 3 writes in order, each with its address and data; each COMPLETE answer but the last issues the next. (from 07_ring_delivery.md section 7.6, 07_ring_delivery.md section 7.3, 10_bus_interface_and_register_window.md section 10.7.1) -/
def Obligations.DeliveryWritesInOrder : Prop :=
  (∀ (d : Delivery) (c : Cycle) (m : Message) (s : State), s.engine = .transfer d c → s.msg d.desc = some m →
    (d.next = .header0 → exec .respComplete s = .next (issueWrite { d with next := .header1 } s)) ∧
    (d.next = .header1 → m.length = 0 → exec .respComplete s = .next (issueWrite { d with next := .index } s)) ∧
    (d.next = .header1 → 0 < m.length → exec .respComplete s = .next (issueWrite { d with next := .payload 0 } s)) ∧
    (∀ j, d.next = .payload j → j + 1 < m.length →
      exec .respComplete s = .next (issueWrite { d with next := .payload (j + 1) } s)) ∧
    (∀ j, d.next = .payload j → m.length ≤ j + 1 →
      exec .respComplete s = .next (issueWrite { d with next := .index } s))) ∧
  ∀ (d : Delivery) (m : Message) (s : State) (addr data : Word), s.msg d.desc = some m →
    (d.next = .header0 ∧ addr = (s.st d.station).ring.latchedBase + BitVec.ofNat 32 (264 * d.slot) ∧ data = d.header0 ∨
      d.next = .header1 ∧ addr = (s.st d.station).ring.latchedBase + BitVec.ofNat 32 (264 * d.slot + 4) ∧
        data = d.header1 ∨
      (∃ j, d.next = .payload j ∧
        addr = (s.st d.station).ring.latchedBase + BitVec.ofNat 32 (264 * d.slot + 8 + 4 * j) ∧
        ∃ c, j < m.length ∧ m.cells[j / 8]? = some c ∧ data = CellStore.read s.cellStore (8 * c.val + j % 8)) ∨
      d.next = .index ∧ addr = (s.st d.station).ring.latchedIndex ∧
        data = ((s.st d.station).ring.produced + 1).setWidth 32) →
    issueWrite d s = { s with engine := .transfer d { addr, data, timer := s.responseLimit } }

/-- O43. The COMPLETE answer to the index write completes the delivery: the ring advances, the message ends DELIVERED, ARRIVEc is set, the burst continues or ends. (from 07_ring_delivery.md section 7.6, 05_message_end_and_confirmations.md section 5.2, 07_ring_delivery.md section 7.3, 05_message_end_and_confirmations.md section 5.3, 05_message_end_and_confirmations.md section 5.4, 06_locks.md section 6.5, 07_ring_delivery.md section 7.5) -/
def Obligations.DeliveryCompletion : Prop :=
  ∀ (d : Delivery) (c : Cycle) (m : Message) (rest : List DescId) (s : State), s.engine = .transfer d c →
    d.next = .index → s.msg d.desc = some m → m.dest = d.station → (s.st d.station).queue d.cls = d.desc :: rest →
    s.RingsSound → ∃ t, exec .respComplete s = .next t ∧
    (t.st d.station).queue d.cls = rest ∧ (∀ e, e ≠ d.cls → (t.st d.station).queue e = (s.st d.station).queue e) ∧
    (t.st d.station).ring = { (s.st d.station).ring with
      produced := (s.st d.station).ring.produced + 1
      state := if (s.st d.station).ring.state = .disabling then .disabled
        else if (s.st d.station).ring.fill + 1 = (s.st d.station).ring.latchedSlots then .stalled else .active } ∧
    (t.st d.station).pendingFlags.getLsbD d.cls.val = true ∧
    (∀ l, m.carriedLock = some l → (t.lock l).state = .held d.station) ∧
    (s.roomQueue = [] → t.freeDescs = s.freeDescs ++ [d.desc] ∧ t.freeCells = s.freeCells ++ m.cells ∧
      t.msg d.desc = none) ∧
    t.chan m.channel = { s.chan m.channel with count := (s.chan m.channel).count - 1 } ∧
    (∀ e, e ≠ m.channel → t.chan e = s.chan e) ∧ t.burst = s.burst + 1 ∧
    (s.burstLimit ≤ s.burst + 1 → t.bown = false ∧ t.gap = true) ∧
    (s.burst + 1 < s.burstLimit → (∀ a, ¬ t.Servable a) → t.engine = .idle ∧ t.gap = true) ∧
    (s.burst + 1 < s.burstLimit → ∀ (k : Nat) (a : StationId) (e : ClassId) (x : DescId) (more : List DescId) (n : Message)
      (g : Ring), 1 ≤ k → k ≤ 8 → a.val = (s.rrPointer.val + k) % 8 → t.Servable a →
      (∀ (j : Nat) (b : StationId), 1 ≤ j → j < k → b.val = (s.rrPointer.val + j) % 8 → ¬ t.Servable b) →
      (∀ e' < e, (t.st a).queue e' = []) → (t.st a).queue e = x :: more → t.msg x = some n → g = (t.st a).ring →
      n.state = .delivering ∧ t.rrPointer = a ∧ t.gap = s.gap ∧ t.engine = .transfer
        { station := a, cls := e, desc := x, slot := g.produced.toNat % g.latchedSlots
          header0 := headerWord0 n, header1 := headerWord1 n, next := .header0, retries := 0 }
        { addr := g.latchedBase + BitVec.ofNat 32 (264 * (g.produced.toNat % g.latchedSlots)), data := headerWord0 n
          timer := s.responseLimit }) ∧
    (m.confirm = true → (s.st m.source).state = .online →
      ((s.st m.source).confirms.length < 16 → (t.st m.source).pendingFlags.getLsbD 6 = true ∧
        (t.st m.source).confirms = (s.st m.source).confirms ++
          [{ channel := m.channel, sequence := m.sequence, outcome := .delivered }] ∧
        (t.st m.source).confirmOverflow = (s.st m.source).confirmOverflow ∧ (t.st m.source).fault = (s.st m.source).fault) ∧
      (16 ≤ (s.st m.source).confirms.length → (t.st m.source).pendingFlags.getLsbD 7 = true ∧
        (t.st m.source).confirms = (s.st m.source).confirms ∧ (t.st m.source).confirmOverflow = true ∧
        (t.st m.source).fault = some { code := .confirmOverflow, detail := BitVec.ofNat 32 m.channel.val })) ∧
    (m.confirm = false ∨ (s.st m.source).state ≠ .online →
      (t.st m.source).confirms = (s.st m.source).confirms ∧
      (t.st m.source).confirmOverflow = (s.st m.source).confirmOverflow ∧
      (t.st m.source).fault = (s.st m.source).fault ∧ (t.st m.source).multiple = (s.st m.source).multiple) ∧
    (∀ l, m.carriedLock = some l →
      ((s.st d.station).wait.map (·.lock) = some l → (t.lock l).waiters = (s.lock l).waiters.erase d.station ∧
        (t.st d.station).wait = none ∧ (t.st d.station).lastWait = .granted ∧
        (t.st d.station).pendingFlags.getLsbD 4 = true) ∧
      ((s.st d.station).wait.map (·.lock) ≠ some l → (t.lock l).waiters = (s.lock l).waiters)) ∧
    ((s.st d.station).wait = none ∨ (s.st d.station).wait.map (·.lock) ≠ m.carriedLock →
      (t.st d.station).wait = (s.st d.station).wait ∧ (t.st d.station).lastWait = (s.st d.station).lastWait) ∧
    (∀ l, m.carriedLock ≠ some l → t.lock l = s.lock l) ∧
    (∀ b, (t.st b).state = (s.st b).state ∧ (t.st b).limits = (s.st b).limits ∧ (t.st b).readSlot = (s.st b).readSlot ∧
      (t.st b).staging = (s.st b).staging ∧ (t.st b).sendTag = (s.st b).sendTag ∧
      (t.st b).sendResult = (s.st b).sendResult ∧ (t.st b).result = (s.st b).result ∧
      (t.st b).supOperand = (s.st b).supOperand ∧ (t.st b).seqCounter = (s.st b).seqCounter ∧
      (t.st b).roomWaitLimit = (s.st b).roomWaitLimit ∧ (t.st b).lockWaitLimit = (s.st b).lockWaitLimit ∧
      (t.st b).enables = (s.st b).enables ∧ (t.st b).disarm = (s.st b).disarm ∧ (t.st b).levels = (s.st b).levels ∧
      (t.st b).vectorBase = (s.st b).vectorBase ∧ (t.st b).inService = (s.st b).inService) ∧
    (∀ b, b ≠ d.station → (t.st b).ring = (s.st b).ring ∧ (t.st b).queues = (s.st b).queues ∧
      (t.st b).wait = (s.st b).wait ∧ (t.st b).lastWait = (s.st b).lastWait) ∧
    (∀ b, b ≠ m.source → (t.st b).confirms = (s.st b).confirms ∧ (t.st b).confirmOverflow = (s.st b).confirmOverflow ∧
      (t.st b).fault = (s.st b).fault ∧ (t.st b).multiple = (s.st b).multiple) ∧
    t.supervisor = s.supervisor ∧ t.cellStore = s.cellStore ∧ t.answer = s.answer

/-- O44. FAULT, an expired response limit, or a RETRY beyond the budget faults the delivery: message QUEUED, ring FAULTED, fault recorded. (from 07_ring_delivery.md section 7.6, 08_notification_and_acknowledge.md section 8.7, notes/assumptions/5.md) That a timer's expiry is a command of its own, which does nothing before it is due, is the model's choice, log entry 5. -/
def Obligations.DeliveryFaults : Prop :=
  ∀ (d : Delivery) (c : Cycle) (m : Message) (s : State) (after : FaultCode → State), s.engine = .transfer d c →
    s.msg d.desc = some m →
    (∀ code, after code = startIfIdle
      (({ s with
           messages := put s.messages d.desc (some { m with state := .queued })
           engine := .idle
           gap := true } : State).modSt d.station
        fun r => StationRec.faulted code c.addr
          (if r.ring.state = .disabling then r.ringOff else { r with ring := { r.ring with state := .faulted } }))) →
    exec .respFault s = .next (after .ringBusFault) ∧
    (c.timer = 0 → exec .responseLimitExpiry s = .next (after .ringNoResponse)) ∧
    (c.timer ≠ 0 → exec .responseLimitExpiry s = .next s) ∧
    (s.retryBudget < d.retries + 1 → exec .respRetry s = .next (after .ringRetryExhausted))

/-- O45. The notification words, END_SERVICE, FAULT_RECORD and CONFIRM_HEAD act on their own setting when written, and on nothing else. (from 08_notification_and_acknowledge.md section 8.1, 08_notification_and_acknowledge.md section 8.2, 08_notification_and_acknowledge.md section 8.4, 08_notification_and_acknowledge.md section 8.7, 05_message_end_and_confirmations.md section 5.4) -/
def Obligations.NotificationAndClearingWrites : Prop :=
  ∀ (a : StationId) (w : Word) (s : State), s.bown = false →
    exec (.notifyPending a w) s =
      .next (written (s.modSt a fun r => { r with pendingFlags := r.pendingFlags &&& ~~~ w.extractLsb' 0 8 })) ∧
    ((s.st a).state = .online →
      exec (.notifyEnable a w) s = .next (written (s.modSt a fun r => { r with enables := w.extractLsb' 0 8 })) ∧
      exec (.notifyDisarm a w) s = .next (written (s.modSt a fun r => { r with disarm := w.extractLsb' 0 8 })) ∧
      exec (.notifyLevels a w) s = .next (written (s.modSt a fun r => { r with levels := w.extractLsb' 0 24 })) ∧
      exec (.vectorBase a w) s = .next (written (s.modSt a fun r => { r with vectorBase := w.extractLsb' 0 8 }))) ∧
    ((s.st a).state ≠ .online →
      exec (.notifyEnable a w) s = .next (written s) ∧ exec (.notifyDisarm a w) s = .next (written s) ∧
      exec (.notifyLevels a w) s = .next (written s) ∧ exec (.vectorBase a w) s = .next (written s)) ∧
    exec (.endService a w) s = .next (written (s.modSt a fun r => { r with inService := r.inService.dropLast })) ∧
    exec (.faultRecordWrite a w) s = .next (written (s.modSt a fun r => { r with fault := none, multiple := false })) ∧
    exec (.confirmHeadWrite a w) s = .next (written (s.modSt a fun r => { r with confirmOverflow := false }))

/-- O46. A read of ACK acknowledges the eligible source of highest level, then of lowest number; with none it returns 0 and changes nothing. (from 08_notification_and_acknowledge.md section 8.3, 08_notification_and_acknowledge.md section 8.4) -/
def Obligations.AcknowledgeChoosesTheMostUrgentSource : Prop :=
  ∀ (a : StationId) (s : State),
    ((s.st a).ntf = true ↔ ∃ n, (s.st a).Ready n) ∧
    (s.bown = false →
      ((∀ n, ¬ (s.st a).Ready n) →
        exec (.ack a) s = .next { s with answer := some { resp := .complete, data := some 0 } }) ∧
      ∀ n, (s.st a).Ready n →
        (∀ k, (s.st a).Ready k → (s.st a).sourceLevel k < (s.st a).sourceLevel n ∨
          (s.st a).sourceLevel k = (s.st a).sourceLevel n ∧ n ≤ k) →
        exec (.ack a) s = .next
          { s.modSt a (fun r =>
              { r with
                pendingFlags := r.pendingFlags &&& ~~~ (1#8 <<< n.val)
                inService := r.inService ++ [{ source := n, level := r.sourceLevel n }]
                enables := if r.disarm.getLsbD n.val then r.enables &&& ~~~ (1#8 <<< n.val) else r.enables }) with
            answer := some
              { resp := .complete
                data := some (BitVec.ofNat 32 (2 ^ 31 + (s.st a).sourceLevel n * 2 ^ 12 + n.val * 2 ^ 8 +
                  ((s.st a).vectorBase.toNat / 8 * 8 + n.val))) } })

/-- O47. The vector an acknowledge returns is the vector base with its bits 2 to 0 replaced by the source number. (from R149) -/
def Obligations.VectorIsTheBaseWithTheSource : Prop :=
  ∀ (a : StationId) (n : SourceId) (s : State), s.bown = false → (s.st a).chosenSource = some n →
    ∃ t w, exec (.ack a) s = .next t ∧ t.answer = some { resp := .complete, data := some w } ∧
    w.extractLsb' 3 5 = (s.st a).vectorBase.extractLsb' 3 5 ∧ w.extractLsb' 0 3 = BitVec.ofNat 3 n.val ∧
    ((s.st a).vectorBase = 0x40 → (w.extractLsb' 0 8).toNat = 0x40 + n.val) ∧
    ((s.st a).vectorBase = 0x9B → (w.extractLsb' 0 8).toNat = 0x98 + n.val) ∧
    (t.st a).vectorBase = (s.st a).vectorBase

/-- O48. A read of each word of the window but ACK returns the content its rule gives, its fields, and those of a message header, as Tables 10-5 to 10-9 lay them out. (from 10_bus_interface_and_register_window.md section 10.7.1, 10_bus_interface_and_register_window.md section 10.7, 10_bus_interface_and_register_window.md section 10.7.2, 10_bus_interface_and_register_window.md section 10.7.3, 10_bus_interface_and_register_window.md section 10.2, 10_bus_interface_and_register_window.md section 10.3, 09_station_lifecycle.md section 9.8, 09_station_lifecycle.md section 9.3, 03_sending.md section 3.1, 04_station_queues_and_taking.md section 4.4, 06_locks.md section 6.8, 07_ring_delivery.md section 7.8) -/
def Obligations.WindowWordsReadTheirContent : Prop :=
  (∀ m : Message, m.length ≤ 64 →
    (headerWord0 m).extractLsb' 31 1 = 1 ∧ (headerWord0 m).extractLsb' 25 6 = 0 ∧
    (headerWord0 m).getLsbD 24 = m.confirm ∧
    (∀ l, m.carriedLock = some l →
      ((headerWord0 m).extractLsb' 19 5).toNat = l.val ∧ (headerWord0 m).getLsbD 18 = true) ∧
    (m.carriedLock = none → (headerWord0 m).extractLsb' 18 6 = 0) ∧
    ((headerWord0 m).extractLsb' 12 6).toNat = m.channel.val ∧ ((headerWord0 m).extractLsb' 9 3).toNat = m.source.val ∧
    ((headerWord0 m).extractLsb' 7 2).toNat = m.cls.val ∧ ((headerWord0 m).extractLsb' 0 7).toNat = m.length ∧
    headerWord1 m = m.tag ++ m.sequence ∧ headerWord0 m ≠ 0) ∧
  (∀ (s : State) (a : StationId) (r : StationRec) (w : ApertureWord → Word), r = s.st a →
    (∀ k, w k = readWord (.aperture a k) s) →
    (∀ x ∈ [(ResultCode.ok, 0), (.pending, 1), (.busy, 2), (.notOnline, 3), (.badCommand, 4), (.badOperand, 5),
        (.notSupervisor, 6), (.inUse, 7), (.badChannel, 8), (.notPermitted, 9), (.destOffline, 10), (.channelFull, 11),
        (.noRoom, 12), (.empty, 14), (.holding, 15), (.notHolding, 16), (.lockNotOwned, 17), (.lockPledged, 18),
        (.passNotAllowed, 19), (.alreadyHeld, 20), (.lockBusy, 21), (.notWaiting, 25), (.ringMode, 26), (.ringInvalid, 27)],
      r.result.code = x.1 → bits (w .result) 7 0 = x.2) ∧ bits (w .result) 15 8 = r.result.command.toNat ∧
    w .command = 0 ∧ w .endService = 0 ∧ w .supOperand = r.supOperand ∧ (∀ k, w (.staging k) = entry r.staging k) ∧
    w .ringBase = r.ring.base ∧ w .ringSlots = r.ring.slots ∧ w .ringIndexAddr = r.ring.indexAddr ∧
    w .sendTag = r.sendTag.setWidth 32 ∧ w .ringConsumed = r.ring.consumed.setWidth 32 ∧
    w .notifyPending = r.pendingFlags.setWidth 32 ∧ w .notifyEnable = r.enables.setWidth 32 ∧
    w .notifyDisarm = r.disarm.setWidth 32 ∧ w .vectorBase = r.vectorBase.setWidth 32 ∧
    (r.readSlot = none → w .readHeader0 = 0 ∧ w .readHeader1 = 0 ∧ ∀ i, w (.payload i) = 0) ∧
    (∀ slot, r.readSlot = some slot → w .readHeader0 = slot.header0 ∧ w .readHeader1 = slot.header1 ∧
      ∀ m, s.msg slot.desc = some m → ∀ i : Fin 64, (m.length ≤ i.val → w (.payload i) = 0) ∧
        ∀ c, i.val < m.length → m.cells[i.val / 8]? = some c →
          w (.payload i) = CellStore.read s.cellStore (8 * c.val + i.val % 8)) ∧
    bits (w .stationStatus) 1 0 = (match r.state with | .offline => 0 | .online => 1 | .quiescing => 2) ∧
    bits (w .stationStatus) 3 2 = (match r.send with | .idle => 0 | .awaitRoom _ => 1 | .copying _ _ => 2) ∧
    (w .stationStatus).getLsbD 4 = r.readSlot.isSome ∧ (w .stationStatus).getLsbD 5 = r.wait.isSome ∧
    (∀ x, r.wait = some x → bits (w .stationStatus) 12 8 = x.lock.val) ∧
    (r.wait = none → bits (w .stationStatus) 12 8 = 0) ∧
    bits (w .stationStatus) 17 16 = (match r.lastWait with | .none => 0 | .granted => 1 | .timeout => 2 | .cancelled => 3) ∧
    bits (w .waitLimits) 31 16 = r.lockWaitLimit.toNat ∧ bits (w .waitLimits) 15 0 = r.roomWaitLimit.toNat ∧
    bits (w .sendResult) 18 16 = (match r.sendResult.outcome with
      | .none => 0 | .ok => 1 | .destOffline => 2 | .queueFull => 3 | .timeout => 4 | .cancelled => 5 | .closed => 6) ∧
    bits (w .sendResult) 15 0 = r.sendResult.sequence.toNat ∧
    ((∀ c, (r.queue c).length ≤ 255) → ∀ c, bits (w .queueLengths) (8 * c.val + 7) (8 * c.val) = (r.queue c).length) ∧
    (∀ c, bits (w .queueLimits) (8 * c.val + 7) (8 * c.val) = (r.limit c).val) ∧
    (r.confirms.length ≤ 16 → (w .confirmHead).getLsbD 30 = r.confirmOverflow) ∧
    (r.confirms = [] → (w .confirmHead).getLsbD 31 = false ∧ bits (w .confirmHead) 29 0 = 0) ∧
    (∀ e rest, r.confirms = e :: rest → r.confirms.length ≤ 16 → (w .confirmHead).getLsbD 31 = true ∧
      bits (w .confirmHead) 28 24 = r.confirms.length ∧
      bits (w .confirmHead) 23 22 = (match e.outcome with | .released => 1 | .delivered => 2 | .discarded => 3) ∧
      bits (w .confirmHead) 21 16 = e.channel.val ∧ bits (w .confirmHead) 15 0 = e.sequence.toNat) ∧
    (∀ l, (w .locksOwned).getLsbD l.val = true ↔ (s.lock l).state = .held a ∨ (s.lock l).state = .pledged a) ∧
    (r.ring.latchedSlots ≤ 256 → bits (w .ringStatus) 16 8 = r.ring.latchedSlots ∧ bits (w .ringStatus) 2 0 =
      (match r.ring.state with | .disabled => 0 | .active => 1 | .stalled => 2 | .faulted => 3 | .disabling => 4)) ∧
    bits (w .ringCounts) 31 16 = r.ring.consumed.toNat ∧ bits (w .ringCounts) 15 0 = r.ring.produced.toNat ∧
    (∀ n : SourceId, bits (w .notifyLevels) (3 * n.val + 2) (3 * n.val) = r.sourceLevel n) ∧
    (r.inService.length ≤ 7 → (∀ e ∈ r.inService, e.level ≤ 7) →
      (∀ n : SourceId, (w .inService).getLsbD (16 + n.val) = true ↔ ∃ e ∈ r.inService, e.source = n) ∧
      bits (w .inService) 2 0 = r.inService.length ∧ (∀ e, r.inService.getLast? = some e →
        bits (w .inService) 10 8 = e.level ∧ bits (w .inService) 6 4 = e.source.val) ∧
      (r.inService = [] → w .inService = 0)) ∧
    (w .faultRecord).getLsbD 31 = r.multiple ∧ (r.fault = none → bits (w .faultRecord) 3 0 = 0 ∧ w .faultDetail = 0) ∧
    ∀ f, r.fault = some f → w .faultDetail = f.detail ∧ bits (w .faultRecord) 3 0 = (match f.code with
      | .stagingCollision => 1 | .accessFault => 2 | .ringBusFault => 3 | .ringNoResponse => 4 | .ringRetryExhausted => 5
      | .badConsumed => 6 | .lockRevoked => 7 | .confirmOverflow => 8)) ∧
  ∀ (s : State) (w : GlobalWord → Word), (∀ k, w k = readWord (.global k) s) →
    (∀ b : StationId, bits (w .stationStates) (2 * b.val + 1) (2 * b.val) =
      (match (s.st b).state with | .offline => 0 | .online => 1 | .quiescing => 2)) ∧
    bits (w .stationStates) 18 16 = s.supervisor.val ∧
    (s.roomQueue.length ≤ 8 → s.freeDescs.length ≤ 256 → s.freeCells.length ≤ 1024 →
      bits (w .storeStatus) 31 28 = s.roomQueue.length ∧ bits (w .storeStatus) 24 16 = s.freeDescs.length ∧
      bits (w .storeStatus) 10 0 = s.freeCells.length) ∧
    (s.roomQueue.length ≤ 8 → (∀ e ∈ s.roomQueue, e.cellsNeeded ≤ 8) → bits (w .roomQueue) 27 24 = s.roomQueue.length ∧
      bits (w .roomQueue) 31 28 = (s.roomQueue.head?.map (·.cellsNeeded)).getD 0 ∧
      ∀ i : Fin 8, bits (w .roomQueue) (3 * i.val + 2) (3 * i.val) = (s.roomQueue[i.val]?.map (·.station.val)).getD 0) ∧
    (s.burst ≤ 16 → (∀ d, s.engine.delivery = some d → d.retries ≤ 8) →
      bits (w .engineStatus) 27 25 = s.rrPointer.val ∧ bits (w .engineStatus) 24 20 = s.burst ∧
      bits (w .engineStatus) 1 0 = (match s.engine with | .idle => 0 | .busWait _ => 1 | .transfer _ _ => 2) ∧
      (∀ d, s.engine.delivery = some d → bits (w .engineStatus) 19 16 = d.retries ∧
        bits (w .engineStatus) 15 8 = d.desc.val ∧ bits (w .engineStatus) 6 5 = d.cls.val ∧
        bits (w .engineStatus) 4 2 = d.station.val) ∧
      (s.engine = .idle → bits (w .engineStatus) 19 2 = 0)) ∧
    (s.burstLimit ≤ 16 → s.retryBudget ≤ 7 → s.responseLimit ≤ 255 → bits (w .engineConfig) 20 16 = s.burstLimit ∧
      bits (w .engineConfig) 10 8 = s.retryBudget ∧ bits (w .engineConfig) 7 0 = s.responseLimit) ∧
    (s.tickDiv ≤ 65535 → bits (w .tickConfig) 15 0 = s.tickDiv) ∧
    (∀ c, bits (w (.channelRoute c)) 23 16 = (s.chan c).mask.toNat ∧ (w (.channelRoute c)).getLsbD 8 = (s.chan c).pass ∧
      (w (.channelRoute c)).getLsbD 7 = (s.chan c).confirm ∧ (w (.channelRoute c)).getLsbD 6 = (s.chan c).hold ∧
      bits (w (.channelRoute c)) 5 4 = (s.chan c).cls.val ∧ bits (w (.channelRoute c)) 3 1 = (s.chan c).dest.val ∧
      bits (w (.channelRoute c)) 0 0 = (match (s.chan c).state with | .closed => 0 | .opened => 1) ∧
      bits (w (.channelCount c)) 7 0 = (s.chan c).limit.val ∧
      ((s.chan c).count ≤ 255 → bits (w (.channelCount c)) 15 8 = (s.chan c).count)) ∧
    ∀ l, (s.lock l).waiters.length ≤ 8 → bits (w (.lockRecord l)) 19 16 = (s.lock l).waiters.length ∧
      bits (w (.lockRecord l)) 15 8 = (match (s.lock l).state with | .carried d => d.val | _ => 0) ∧
      bits (w (.lockRecord l)) 4 2 = (match (s.lock l).state with | .held o => o.val | .pledged o => o.val | _ => 0) ∧
      bits (w (.lockRecord l)) 1 0 =
        (match (s.lock l).state with | .free => 0 | .held _ => 1 | .pledged _ => 2 | .carried _ => 3) ∧
      bits (w (.lockWaiters l)) 27 24 = (s.lock l).waiters.length ∧
      ∀ i : Fin 8, bits (w (.lockWaiters l)) (3 * i.val + 2) (3 * i.val) =
        ((s.lock l).waiters[i.val]?.map (·.val)).getD 0

/-- O49. The window access that encodes a well-formed command decodes to that command, for every operand. (from 10_bus_interface_and_register_window.md section 10.1, 10_bus_interface_and_register_window.md section 10.2, 10_bus_interface_and_register_window.md section 10.3, 10_bus_interface_and_register_window.md section 10.7) -/
def Obligations.AccessesDecodeToTheirCommands : Prop :=
  ∀ (i : Instr) (x : BusAccess), wellFormed i = true → encodeAccess i = some x → decodeAccess x = some i

/-- O50. Every step keeps every in-service list ordered: levels 1 to 7 strictly increasing, no source twice, at most 7 entries. (from 08_notification_and_acknowledge.md section 8.4) -/
def Obligations.InServiceListsStayOrdered : Prop :=
  ∀ s t : State, s.ServiceOrdered → step s = .next t → t.ServiceOrdered

/-- O51. Every step keeps a station that is not ONLINE without sources and waits, and an OFFLINE one without messages, post, ring, lock or confirmations. (from 09_station_lifecycle.md section 9.1, 08_notification_and_acknowledge.md section 8.6, 06_locks.md section 6.7, 05_message_end_and_confirmations.md section 5.5, 03_sending.md section 3.2, 07_ring_delivery.md section 7.9) -/
def Obligations.AbsentStationsKeepHoldingNothing : Prop :=
  (∀ s t : State, s.AbsentStationsHoldNothing → step s = .next t → t.AbsentStationsHoldNothing) ∧
  ∀ s t : State, s.OfflineStationsAreIdle → s.RoomQueueAgrees → s.MessagesPlaced → s.RingsSound → step s = .next t →
    t.OfflineStationsAreIdle

/-- O52. Every step keeps every class queue within its limit, every limit 1 or more, and every confirmation list within 16 entries. (from 04_station_queues_and_taking.md section 4.1, 05_message_end_and_confirmations.md section 5.4) -/
def Obligations.ListsStayWithinLimits : Prop :=
  ∀ s t : State, s.ListsWithinLimits → step s = .next t → t.ListsWithinLimits

/-- O53. Every step keeps the cell store in its canonical form. (from 01_the_message_store.md section 1.1, notes/assumptions/7.md) The canonical form is the model's choice, log entry 7. -/
def Obligations.CellStoreStaysCanonical : Prop :=
  ∀ s t : State, CellStore.wf s.cellStore = true → step s = .next t → CellStore.wf t.cellStore = true

/-- O54. Every step keeps every cell in one place, every descriptor free or holding one record, and every message in exactly the one place its state names. (from 01_the_message_store.md section 1.1, 01_the_message_store.md section 1.3, 04_station_queues_and_taking.md section 4.1, 04_station_queues_and_taking.md section 4.4, 06_locks.md section 6.5, 07_ring_delivery.md section 7.5) -/
def Obligations.StoreStaysConserved : Prop :=
  (∀ s t : State, s.StoreConserved → step s = .next t → t.StoreConserved) ∧
  ∀ s t : State, s.StoreConserved → s.MessagesPlaced → s.RingsSound → step s = .next t → t.MessagesPlaced

/-- O55. After every step, the need of the head of a non-empty room queue does not fit the free counts. (from 01_the_message_store.md section 1.6) -/
def Obligations.RoomQueueHeadStaysBlocked : Prop :=
  ∀ s t : State, s.RoomHeadBlocked → step s = .next t → t.RoomHeadBlocked

/-- O56. Every step keeps each channel's count equal to its messages in existence plus its posts waiting, and within its limit. (from 02_channels.md section 2.4, 01_the_message_store.md section 1.6) -/
def Obligations.OutstandingCountsStayExact : Prop :=
  ∀ s t : State, s.CountsAgree → step s = .next t → t.CountsAgree

/-- O57. Every step keeps each waiter list without duplicates and in agreement with the lock-wait slots, and a FREE lock without waiters. (from 06_locks.md section 6.2, 06_locks.md section 6.7) -/
def Obligations.WaiterListsStayExact : Prop :=
  ∀ s t : State, s.WaitersAgree → step s = .next t → t.WaitersAgree

/-- O58. Every step keeps the fill of every ring within its slots, below them while ACTIVE or delivering, and equal to them while STALLED. (from 07_ring_delivery.md section 7.1, 07_ring_delivery.md section 7.3, 07_ring_delivery.md section 7.4) -/
def Obligations.RingsStaySound : Prop :=
  ∀ s t : State, s.RingsSound → step s = .next t → t.RingsSound

/-- O59. Every step keeps the engine configuration and counters, the timers and TICK_DIV in their ranges, and no gap while the device owns the bus. (from 07_ring_delivery.md section 7.5, 07_ring_delivery.md section 7.8, 10_bus_interface_and_register_window.md section 10.5, 01_the_message_store.md section 1.6, 06_locks.md section 6.2) -/
def Obligations.CountersStayInRange : Prop :=
  ∀ s t : State, s.CountersInRange → step s = .next t → t.CountersInRange

/-- O60. The state after reset meets every invariant. (from 01_the_message_store.md section 1.8, 02_channels.md section 2.7, 04_station_queues_and_taking.md section 4.9, 06_locks.md section 6.9, 07_ring_delivery.md section 7.9, 08_notification_and_acknowledge.md section 8.6, 09_station_lifecycle.md section 9.10, 10_bus_interface_and_register_window.md section 10.5) -/
def Obligations.InvariantsHoldAfterReset : Prop :=
  ∀ s : State, (s = State.reset ∨ ∃ v u, exec (.reset v) u = .next s) →
    s.ServiceOrdered ∧ s.AbsentStationsHoldNothing ∧ s.OfflineStationsAreIdle ∧ s.MessagesPlaced ∧ s.ListsWithinLimits ∧ CellStore.wf s.cellStore = true ∧
    s.StoreConserved ∧ s.RoomHeadBlocked ∧ s.CountsAgree ∧ s.WaitersAgree ∧ s.RingsSound ∧ s.CountersInRange
end

