-- ==== Sys2Proof/Laws/CellStore.lean ====
section
/-! SUPPORT. The cell store: a read after a write, and the canonical form, which every operation over it keeps. -/

namespace Sys2Proof.Machine.CellStore

theorem wf_of_wfAbove : ∀ {k : Nat} {m : CellStore}, wfAbove k m = true → wf m = true
  | _, [], _ => rfl
  | _, (b, w) :: rest, h => by
    simp only [wfAbove, Bool.and_eq_true] at h
    simp [wf, h.1.2, h.2]

theorem wfAbove_of_le {k k' : Nat} (hk : k ≤ k') : ∀ {m : CellStore}, wfAbove k' m = true → wfAbove k m = true
  | [], _ => rfl
  | (b, w) :: rest, h => by
    simp only [wfAbove, Bool.and_eq_true, decide_eq_true_eq] at h ⊢
    exact ⟨⟨by omega, h.1.2⟩, h.2⟩

theorem wfAbove_cons {k j : Nat} {w : Word} {rest : CellStore} (hj : j < k) (h : wfAbove k rest = true) :
    wfAbove j (cons k w rest) = true := by
  unfold cons
  split
  · exact wfAbove_of_le (by omega) h
  · rename_i hw
    simp [wfAbove, hj, hw, h]

/-- Writing keeps the numbers rising above a bound below the one written. -/
theorem wfAbove_write {j : Nat} : ∀ {m : CellStore} {k : Nat} (w : Word), j < k → wfAbove j m = true →
    wfAbove j (write m k w) = true
  | [], k, w, hk, _ => wfAbove_cons hk rfl
  | (b, v) :: rest, k, w, hk, h => by
    have h' := h
    simp only [wfAbove, Bool.and_eq_true, decide_eq_true_eq] at h'
    obtain ⟨⟨hjb, hv⟩, hr⟩ := h'
    unfold write
    split
    · rename_i hkb
      exact wfAbove_cons hk (by simp [wfAbove, hkb, hv, hr])
    · split
      · rename_i hkb; subst hkb
        exact wfAbove_cons hk hr
      · have hbk : b < k := by omega
        simp only [wfAbove, Bool.and_eq_true, decide_eq_true_eq]
        exact ⟨⟨hjb, hv⟩, wfAbove_write w hbk hr⟩

/-- A write keeps the canonical form. -/
theorem write_keeps_wf : ∀ {m : CellStore} (k : Nat) (w : Word), wf m = true → wf (write m k w) = true
  | [], k, w, _ => by
    unfold write cons
    split
    · rfl
    · rename_i hw; simp [wf, wfAbove, hw]
  | (b, v) :: rest, k, w, h => by
    have h' := h
    simp only [wf, Bool.and_eq_true] at h'
    unfold write
    split
    · rename_i hkb
      unfold cons
      split
      · exact h
      · rename_i hw; simp [wf, wfAbove, hw, hkb, h'.1, h'.2]
    · split
      · rename_i hkb; subst hkb
        unfold cons
        split
        · exact wf_of_wfAbove h'.2
        · rename_i hw; simp [wf, hw, h'.2]
      · simp only [wf, Bool.and_eq_true]
        exact ⟨h'.1, wfAbove_write w (by omega) h'.2⟩

theorem read_of_wfAbove : ∀ {m : CellStore} {j k : Nat}, wfAbove j m = true → k ≤ j → read m k = unlisted
  | [], _, _, _, _ => rfl
  | (b, w) :: rest, j, k, h, hk => by
    simp only [wfAbove, Bool.and_eq_true, decide_eq_true_eq] at h
    have : k ≠ b := by omega
    simp only [read, if_neg this]
    exact read_of_wfAbove h.2 (by omega)

theorem read_cons (k : Nat) (w : Word) {rest : CellStore} (h : wfAbove k rest = true) (i : Nat) :
    read (cons k w rest) i = if i = k then w else read rest i := by
  unfold cons
  split
  · rename_i hw
    by_cases hi : i = k
    · subst hi; simp [read_of_wfAbove h (Nat.le_refl _), hw]
    · simp [hi]
  · simp [read]

/-- A read after a write to the same word gives the word written; every other word reads as before. -/
theorem read_write : ∀ {m : CellStore} (k : Nat) (w : Word) (i : Nat), wf m = true →
    read (write m k w) i = if i = k then w else read m i
  | [], k, w, i, _ => read_cons k w rfl i
  | (b, v) :: rest, k, w, i, h => by
    have h' := h
    simp only [wf, Bool.and_eq_true] at h'
    unfold write
    split
    · rename_i hkb
      exact read_cons k w (by simp [wfAbove, hkb, h'.1, h'.2]) i
    · split
      · rename_i hkb; subst hkb
        rw [read_cons k w h'.2]
        by_cases hi : i = k <;> simp [hi, read]
      · rename_i h1 h2
        have hw := read_write k w i (wf_of_wfAbove h'.2)
        by_cases hi : i = b
        · subst hi
          have : ¬ i = k := fun e => h2 e.symm
          simp [read, this]
        · simp [read, hi, hw]

end Sys2Proof.Machine.CellStore

namespace Sys2Proof.Machine

theorem copyWord_keeps_wf (cells : List CellId) (length : Nat) (staging : Vector Word 64) {store : CellStore} (j : Nat)
    (h : store.wf = true) : (copyWord cells length staging store j).wf = true := by
  unfold copyWord
  split
  · exact CellStore.write_keeps_wf _ _ h
  · exact h

/-- The copy keeps the canonical form. -/
theorem copyPayload_keeps_wf (cells : List CellId) (length : Nat) (staging : Vector Word 64) {store : CellStore}
    (h : store.wf = true) : (copyPayload cells length staging store).wf = true := by
  unfold copyPayload
  generalize List.range (Config.cellWords * cells.length) = js
  induction js generalizing store with
  | nil => exact h
  | cons j js ih => exact ih (copyWord_keeps_wf cells length staging j h)

/-- The reset state's cell store is in canonical form. -/
theorem reset_cellStore_wf : CellStore.wf State.reset.cellStore = true := rfl

end Sys2Proof.Machine
end

