-- ==== Sys2Proof/Laws/Tables.lean ====
section
/-! SUPPORT. Laws of the fixed-size tables and of the bit fields. -/

namespace Sys2Proof.Machine

variable {α β : Type} {n : Nat}

@[simp] theorem entry_put_same (v : Vector α n) (i : Fin n) (x : α) : entry (put v i x) i = x := by
  simp [entry, put]

@[simp] theorem entry_put_ne (v : Vector α n) {i j : Fin n} (x : α) (h : j ≠ i) :
    entry (put v i x) j = entry v j := by
  have h' : i.val ≠ j.val := fun e => h (Fin.ext e.symm)
  simp [entry, put, h']

theorem entry_put (v : Vector α n) (i j : Fin n) (x : α) :
    entry (put v i x) j = if j = i then x else entry v j := by
  by_cases h : j = i
  · subst h; simp
  · simp [h]

@[simp] theorem entry_mapTable (f : α → β) (v : Vector α n) (i : Fin n) :
    entry (mapTable f v) i = f (entry v i) := by
  simp [entry, mapTable]

@[simp] theorem entry_replicate (x : α) (i : Fin n) : entry (Vector.replicate n x) i = x := by
  simp [entry]

@[simp] theorem put_entry (v : Vector α n) (i : Fin n) : put v i (entry v i) = v := by
  simp [entry, put]

theorem put_put (v : Vector α n) (i : Fin n) (x y : α) : put (put v i x) i y = put v i y := by
  simp [put]

/-- Two tables with equal entries are equal. -/
theorem table_ext {v w : Vector α n} (h : ∀ i, entry v i = entry w i) : v = w := by
  apply Vector.ext
  intro i hi
  exact h ⟨i, hi⟩

@[simp] theorem fieldAt_val (w : Word) (lo n : Nat) [NeZero n] : (fieldAt w lo n).val = w.toNat / 2 ^ lo % n := by
  simp [fieldAt]

@[simp] theorem flagValue_true : flagValue true = 1 := rfl
@[simp] theorem flagValue_false : flagValue false = 0 := rfl

theorem flagValue_le (b : Bool) : flagValue b ≤ 1 := by cases b <;> decide

/-- The word of a packing whose fields fit 32 bits has the sum of the fields for its value. -/
theorem pack_toNat (fields : List (Nat × Nat)) : (pack fields).toNat = placed fields % 2 ^ 32 := by
  simp [pack]

end Sys2Proof.Machine
end

