-- ==== Sys2Proof/Laws/State.lean ====
section
/-! SUPPORT. One lemma per field for each update of State's tables, and what the tables read as after it. -/

namespace Sys2Proof.Machine

/-! ### State.modSt -/

@[simp] theorem State.modSt_supervisor (s : State) (a : StationId) (f : StationRec → StationRec) : (s.modSt a f).supervisor = s.supervisor := rfl
@[simp] theorem State.modSt_channels (s : State) (a : StationId) (f : StationRec → StationRec) : (s.modSt a f).channels = s.channels := rfl
@[simp] theorem State.modSt_locks (s : State) (a : StationId) (f : StationRec → StationRec) : (s.modSt a f).locks = s.locks := rfl
@[simp] theorem State.modSt_freeCells (s : State) (a : StationId) (f : StationRec → StationRec) : (s.modSt a f).freeCells = s.freeCells := rfl
@[simp] theorem State.modSt_freeDescs (s : State) (a : StationId) (f : StationRec → StationRec) : (s.modSt a f).freeDescs = s.freeDescs := rfl
@[simp] theorem State.modSt_messages (s : State) (a : StationId) (f : StationRec → StationRec) : (s.modSt a f).messages = s.messages := rfl
@[simp] theorem State.modSt_cellStore (s : State) (a : StationId) (f : StationRec → StationRec) : (s.modSt a f).cellStore = s.cellStore := rfl
@[simp] theorem State.modSt_roomQueue (s : State) (a : StationId) (f : StationRec → StationRec) : (s.modSt a f).roomQueue = s.roomQueue := rfl
@[simp] theorem State.modSt_engine (s : State) (a : StationId) (f : StationRec → StationRec) : (s.modSt a f).engine = s.engine := rfl
@[simp] theorem State.modSt_gap (s : State) (a : StationId) (f : StationRec → StationRec) : (s.modSt a f).gap = s.gap := rfl
@[simp] theorem State.modSt_rrPointer (s : State) (a : StationId) (f : StationRec → StationRec) : (s.modSt a f).rrPointer = s.rrPointer := rfl
@[simp] theorem State.modSt_burst (s : State) (a : StationId) (f : StationRec → StationRec) : (s.modSt a f).burst = s.burst := rfl
@[simp] theorem State.modSt_responseLimit (s : State) (a : StationId) (f : StationRec → StationRec) : (s.modSt a f).responseLimit = s.responseLimit := rfl
@[simp] theorem State.modSt_retryBudget (s : State) (a : StationId) (f : StationRec → StationRec) : (s.modSt a f).retryBudget = s.retryBudget := rfl
@[simp] theorem State.modSt_burstLimit (s : State) (a : StationId) (f : StationRec → StationRec) : (s.modSt a f).burstLimit = s.burstLimit := rfl
@[simp] theorem State.modSt_tickDiv (s : State) (a : StationId) (f : StationRec → StationRec) : (s.modSt a f).tickDiv = s.tickDiv := rfl
@[simp] theorem State.modSt_tickCount (s : State) (a : StationId) (f : StationRec → StationRec) : (s.modSt a f).tickCount = s.tickCount := rfl
@[simp] theorem State.modSt_answer (s : State) (a : StationId) (f : StationRec → StationRec) : (s.modSt a f).answer = s.answer := rfl
@[simp] theorem State.modSt_pending (s : State) (a : StationId) (f : StationRec → StationRec) : (s.modSt a f).pending = s.pending := rfl

/-! ### State.modChan -/

@[simp] theorem State.modChan_stations (s : State) (c : ChannelId) (f : Channel → Channel) : (s.modChan c f).stations = s.stations := rfl
@[simp] theorem State.modChan_supervisor (s : State) (c : ChannelId) (f : Channel → Channel) : (s.modChan c f).supervisor = s.supervisor := rfl
@[simp] theorem State.modChan_locks (s : State) (c : ChannelId) (f : Channel → Channel) : (s.modChan c f).locks = s.locks := rfl
@[simp] theorem State.modChan_freeCells (s : State) (c : ChannelId) (f : Channel → Channel) : (s.modChan c f).freeCells = s.freeCells := rfl
@[simp] theorem State.modChan_freeDescs (s : State) (c : ChannelId) (f : Channel → Channel) : (s.modChan c f).freeDescs = s.freeDescs := rfl
@[simp] theorem State.modChan_messages (s : State) (c : ChannelId) (f : Channel → Channel) : (s.modChan c f).messages = s.messages := rfl
@[simp] theorem State.modChan_cellStore (s : State) (c : ChannelId) (f : Channel → Channel) : (s.modChan c f).cellStore = s.cellStore := rfl
@[simp] theorem State.modChan_roomQueue (s : State) (c : ChannelId) (f : Channel → Channel) : (s.modChan c f).roomQueue = s.roomQueue := rfl
@[simp] theorem State.modChan_engine (s : State) (c : ChannelId) (f : Channel → Channel) : (s.modChan c f).engine = s.engine := rfl
@[simp] theorem State.modChan_gap (s : State) (c : ChannelId) (f : Channel → Channel) : (s.modChan c f).gap = s.gap := rfl
@[simp] theorem State.modChan_rrPointer (s : State) (c : ChannelId) (f : Channel → Channel) : (s.modChan c f).rrPointer = s.rrPointer := rfl
@[simp] theorem State.modChan_burst (s : State) (c : ChannelId) (f : Channel → Channel) : (s.modChan c f).burst = s.burst := rfl
@[simp] theorem State.modChan_responseLimit (s : State) (c : ChannelId) (f : Channel → Channel) : (s.modChan c f).responseLimit = s.responseLimit := rfl
@[simp] theorem State.modChan_retryBudget (s : State) (c : ChannelId) (f : Channel → Channel) : (s.modChan c f).retryBudget = s.retryBudget := rfl
@[simp] theorem State.modChan_burstLimit (s : State) (c : ChannelId) (f : Channel → Channel) : (s.modChan c f).burstLimit = s.burstLimit := rfl
@[simp] theorem State.modChan_tickDiv (s : State) (c : ChannelId) (f : Channel → Channel) : (s.modChan c f).tickDiv = s.tickDiv := rfl
@[simp] theorem State.modChan_tickCount (s : State) (c : ChannelId) (f : Channel → Channel) : (s.modChan c f).tickCount = s.tickCount := rfl
@[simp] theorem State.modChan_answer (s : State) (c : ChannelId) (f : Channel → Channel) : (s.modChan c f).answer = s.answer := rfl
@[simp] theorem State.modChan_pending (s : State) (c : ChannelId) (f : Channel → Channel) : (s.modChan c f).pending = s.pending := rfl

/-! ### State.setLock -/

@[simp] theorem State.setLock_stations (s : State) (l : LockId) (r : LockRecord) : (s.setLock l r).stations = s.stations := rfl
@[simp] theorem State.setLock_supervisor (s : State) (l : LockId) (r : LockRecord) : (s.setLock l r).supervisor = s.supervisor := rfl
@[simp] theorem State.setLock_channels (s : State) (l : LockId) (r : LockRecord) : (s.setLock l r).channels = s.channels := rfl
@[simp] theorem State.setLock_freeCells (s : State) (l : LockId) (r : LockRecord) : (s.setLock l r).freeCells = s.freeCells := rfl
@[simp] theorem State.setLock_freeDescs (s : State) (l : LockId) (r : LockRecord) : (s.setLock l r).freeDescs = s.freeDescs := rfl
@[simp] theorem State.setLock_messages (s : State) (l : LockId) (r : LockRecord) : (s.setLock l r).messages = s.messages := rfl
@[simp] theorem State.setLock_cellStore (s : State) (l : LockId) (r : LockRecord) : (s.setLock l r).cellStore = s.cellStore := rfl
@[simp] theorem State.setLock_roomQueue (s : State) (l : LockId) (r : LockRecord) : (s.setLock l r).roomQueue = s.roomQueue := rfl
@[simp] theorem State.setLock_engine (s : State) (l : LockId) (r : LockRecord) : (s.setLock l r).engine = s.engine := rfl
@[simp] theorem State.setLock_gap (s : State) (l : LockId) (r : LockRecord) : (s.setLock l r).gap = s.gap := rfl
@[simp] theorem State.setLock_rrPointer (s : State) (l : LockId) (r : LockRecord) : (s.setLock l r).rrPointer = s.rrPointer := rfl
@[simp] theorem State.setLock_burst (s : State) (l : LockId) (r : LockRecord) : (s.setLock l r).burst = s.burst := rfl
@[simp] theorem State.setLock_responseLimit (s : State) (l : LockId) (r : LockRecord) : (s.setLock l r).responseLimit = s.responseLimit := rfl
@[simp] theorem State.setLock_retryBudget (s : State) (l : LockId) (r : LockRecord) : (s.setLock l r).retryBudget = s.retryBudget := rfl
@[simp] theorem State.setLock_burstLimit (s : State) (l : LockId) (r : LockRecord) : (s.setLock l r).burstLimit = s.burstLimit := rfl
@[simp] theorem State.setLock_tickDiv (s : State) (l : LockId) (r : LockRecord) : (s.setLock l r).tickDiv = s.tickDiv := rfl
@[simp] theorem State.setLock_tickCount (s : State) (l : LockId) (r : LockRecord) : (s.setLock l r).tickCount = s.tickCount := rfl
@[simp] theorem State.setLock_answer (s : State) (l : LockId) (r : LockRecord) : (s.setLock l r).answer = s.answer := rfl
@[simp] theorem State.setLock_pending (s : State) (l : LockId) (r : LockRecord) : (s.setLock l r).pending = s.pending := rfl

/-! ### State.setMsg -/

@[simp] theorem State.setMsg_stations (s : State) (d : DescId) (m : Option Message) : (s.setMsg d m).stations = s.stations := rfl
@[simp] theorem State.setMsg_supervisor (s : State) (d : DescId) (m : Option Message) : (s.setMsg d m).supervisor = s.supervisor := rfl
@[simp] theorem State.setMsg_channels (s : State) (d : DescId) (m : Option Message) : (s.setMsg d m).channels = s.channels := rfl
@[simp] theorem State.setMsg_locks (s : State) (d : DescId) (m : Option Message) : (s.setMsg d m).locks = s.locks := rfl
@[simp] theorem State.setMsg_freeCells (s : State) (d : DescId) (m : Option Message) : (s.setMsg d m).freeCells = s.freeCells := rfl
@[simp] theorem State.setMsg_freeDescs (s : State) (d : DescId) (m : Option Message) : (s.setMsg d m).freeDescs = s.freeDescs := rfl
@[simp] theorem State.setMsg_cellStore (s : State) (d : DescId) (m : Option Message) : (s.setMsg d m).cellStore = s.cellStore := rfl
@[simp] theorem State.setMsg_roomQueue (s : State) (d : DescId) (m : Option Message) : (s.setMsg d m).roomQueue = s.roomQueue := rfl
@[simp] theorem State.setMsg_engine (s : State) (d : DescId) (m : Option Message) : (s.setMsg d m).engine = s.engine := rfl
@[simp] theorem State.setMsg_gap (s : State) (d : DescId) (m : Option Message) : (s.setMsg d m).gap = s.gap := rfl
@[simp] theorem State.setMsg_rrPointer (s : State) (d : DescId) (m : Option Message) : (s.setMsg d m).rrPointer = s.rrPointer := rfl
@[simp] theorem State.setMsg_burst (s : State) (d : DescId) (m : Option Message) : (s.setMsg d m).burst = s.burst := rfl
@[simp] theorem State.setMsg_responseLimit (s : State) (d : DescId) (m : Option Message) : (s.setMsg d m).responseLimit = s.responseLimit := rfl
@[simp] theorem State.setMsg_retryBudget (s : State) (d : DescId) (m : Option Message) : (s.setMsg d m).retryBudget = s.retryBudget := rfl
@[simp] theorem State.setMsg_burstLimit (s : State) (d : DescId) (m : Option Message) : (s.setMsg d m).burstLimit = s.burstLimit := rfl
@[simp] theorem State.setMsg_tickDiv (s : State) (d : DescId) (m : Option Message) : (s.setMsg d m).tickDiv = s.tickDiv := rfl
@[simp] theorem State.setMsg_tickCount (s : State) (d : DescId) (m : Option Message) : (s.setMsg d m).tickCount = s.tickCount := rfl
@[simp] theorem State.setMsg_answer (s : State) (d : DescId) (m : Option Message) : (s.setMsg d m).answer = s.answer := rfl
@[simp] theorem State.setMsg_pending (s : State) (d : DescId) (m : Option Message) : (s.setMsg d m).pending = s.pending := rfl

/-! ### What the tables read as -/

@[simp] theorem State.modSt_chan (s : State) (a : StationId) (f : StationRec → StationRec) (c' : ChannelId) : (s.modSt a f).chan c' = s.chan c' := rfl
@[simp] theorem State.modSt_lock (s : State) (a : StationId) (f : StationRec → StationRec) (l' : LockId) : (s.modSt a f).lock l' = s.lock l' := rfl
@[simp] theorem State.modSt_msg (s : State) (a : StationId) (f : StationRec → StationRec) (d' : DescId) : (s.modSt a f).msg d' = s.msg d' := rfl
@[simp] theorem State.modChan_st (s : State) (c : ChannelId) (f : Channel → Channel) (a' : StationId) : (s.modChan c f).st a' = s.st a' := rfl
@[simp] theorem State.modChan_lock (s : State) (c : ChannelId) (f : Channel → Channel) (l' : LockId) : (s.modChan c f).lock l' = s.lock l' := rfl
@[simp] theorem State.modChan_msg (s : State) (c : ChannelId) (f : Channel → Channel) (d' : DescId) : (s.modChan c f).msg d' = s.msg d' := rfl
@[simp] theorem State.setLock_st (s : State) (l : LockId) (r : LockRecord) (a' : StationId) : (s.setLock l r).st a' = s.st a' := rfl
@[simp] theorem State.setLock_chan (s : State) (l : LockId) (r : LockRecord) (c' : ChannelId) : (s.setLock l r).chan c' = s.chan c' := rfl
@[simp] theorem State.setLock_msg (s : State) (l : LockId) (r : LockRecord) (d' : DescId) : (s.setLock l r).msg d' = s.msg d' := rfl
@[simp] theorem State.setMsg_st (s : State) (d : DescId) (m : Option Message) (a' : StationId) : (s.setMsg d m).st a' = s.st a' := rfl
@[simp] theorem State.setMsg_chan (s : State) (d : DescId) (m : Option Message) (c' : ChannelId) : (s.setMsg d m).chan c' = s.chan c' := rfl
@[simp] theorem State.setMsg_lock (s : State) (d : DescId) (m : Option Message) (l' : LockId) : (s.setMsg d m).lock l' = s.lock l' := rfl

@[simp] theorem State.st_modSt_same (s : State) (a : StationId) (f : StationRec → StationRec) :
    (s.modSt a f).st a = f (s.st a) := by
  simp [State.st, State.modSt]

@[simp] theorem State.st_modSt_ne (s : State) {a b : StationId} (f : StationRec → StationRec) (h : b ≠ a) :
    (s.modSt a f).st b = s.st b := by
  simp [State.st, State.modSt, h]

theorem State.st_modSt (s : State) (a b : StationId) (f : StationRec → StationRec) :
    (s.modSt a f).st b = if b = a then f (s.st a) else s.st b := by
  by_cases h : b = a
  · subst h; simp
  · simp [h]

@[simp] theorem State.chan_modChan_same (s : State) (c : ChannelId) (f : Channel → Channel) :
    (s.modChan c f).chan c = f (s.chan c) := by
  simp [State.chan, State.modChan]

@[simp] theorem State.chan_modChan_ne (s : State) {c e : ChannelId} (f : Channel → Channel) (h : e ≠ c) :
    (s.modChan c f).chan e = s.chan e := by
  simp [State.chan, State.modChan, h]

@[simp] theorem State.lock_setLock_same (s : State) (l : LockId) (r : LockRecord) : (s.setLock l r).lock l = r := by
  simp [State.lock, State.setLock]

@[simp] theorem State.lock_setLock_ne (s : State) {l k : LockId} (r : LockRecord) (h : k ≠ l) :
    (s.setLock l r).lock k = s.lock k := by
  simp [State.lock, State.setLock, h]

@[simp] theorem State.msg_setMsg_same (s : State) (d : DescId) (m : Option Message) : (s.setMsg d m).msg d = m := by
  simp [State.msg, State.setMsg]

@[simp] theorem State.msg_setMsg_ne (s : State) {d e : DescId} (m : Option Message) (h : e ≠ d) :
    (s.setMsg d m).msg e = s.msg e := by
  simp [State.msg, State.setMsg, h]

/-- An update that changes nothing. -/
theorem State.modSt_self (s : State) (a : StationId) {f : StationRec → StationRec} (h : f (s.st a) = s.st a) :
    s.modSt a f = s := by
  unfold State.modSt
  rw [h]
  simp [State.st]

/-- Two updates of one station are one. -/
theorem State.modSt_modSt (s : State) (a : StationId) (f g : StationRec → StationRec) :
    (s.modSt a f).modSt a g = s.modSt a fun r => g (f r) := by
  simp [State.modSt, State.st, put_put]

/-! ### What the tables read as after an update of another field -/

@[simp] theorem State.chan_set_stations (s : State) (x : Vector StationRec 8) (c : ChannelId) :
    State.chan { s with stations := x } c = s.chan c := rfl
@[simp] theorem State.lock_set_stations (s : State) (x : Vector StationRec 8) (l : LockId) :
    State.lock { s with stations := x } l = s.lock l := rfl
@[simp] theorem State.msg_set_stations (s : State) (x : Vector StationRec 8) (d : DescId) :
    State.msg { s with stations := x } d = s.msg d := rfl
@[simp] theorem State.st_set_supervisor (s : State) (x : StationId) (a : StationId) :
    State.st { s with supervisor := x } a = s.st a := rfl
@[simp] theorem State.chan_set_supervisor (s : State) (x : StationId) (c : ChannelId) :
    State.chan { s with supervisor := x } c = s.chan c := rfl
@[simp] theorem State.lock_set_supervisor (s : State) (x : StationId) (l : LockId) :
    State.lock { s with supervisor := x } l = s.lock l := rfl
@[simp] theorem State.msg_set_supervisor (s : State) (x : StationId) (d : DescId) :
    State.msg { s with supervisor := x } d = s.msg d := rfl
@[simp] theorem State.st_set_channels (s : State) (x : Vector Channel 64) (a : StationId) :
    State.st { s with channels := x } a = s.st a := rfl
@[simp] theorem State.lock_set_channels (s : State) (x : Vector Channel 64) (l : LockId) :
    State.lock { s with channels := x } l = s.lock l := rfl
@[simp] theorem State.msg_set_channels (s : State) (x : Vector Channel 64) (d : DescId) :
    State.msg { s with channels := x } d = s.msg d := rfl
@[simp] theorem State.st_set_locks (s : State) (x : Vector LockRecord 32) (a : StationId) :
    State.st { s with locks := x } a = s.st a := rfl
@[simp] theorem State.chan_set_locks (s : State) (x : Vector LockRecord 32) (c : ChannelId) :
    State.chan { s with locks := x } c = s.chan c := rfl
@[simp] theorem State.msg_set_locks (s : State) (x : Vector LockRecord 32) (d : DescId) :
    State.msg { s with locks := x } d = s.msg d := rfl
@[simp] theorem State.st_set_freeCells (s : State) (x : List CellId) (a : StationId) :
    State.st { s with freeCells := x } a = s.st a := rfl
@[simp] theorem State.chan_set_freeCells (s : State) (x : List CellId) (c : ChannelId) :
    State.chan { s with freeCells := x } c = s.chan c := rfl
@[simp] theorem State.lock_set_freeCells (s : State) (x : List CellId) (l : LockId) :
    State.lock { s with freeCells := x } l = s.lock l := rfl
@[simp] theorem State.msg_set_freeCells (s : State) (x : List CellId) (d : DescId) :
    State.msg { s with freeCells := x } d = s.msg d := rfl
@[simp] theorem State.st_set_freeDescs (s : State) (x : List DescId) (a : StationId) :
    State.st { s with freeDescs := x } a = s.st a := rfl
@[simp] theorem State.chan_set_freeDescs (s : State) (x : List DescId) (c : ChannelId) :
    State.chan { s with freeDescs := x } c = s.chan c := rfl
@[simp] theorem State.lock_set_freeDescs (s : State) (x : List DescId) (l : LockId) :
    State.lock { s with freeDescs := x } l = s.lock l := rfl
@[simp] theorem State.msg_set_freeDescs (s : State) (x : List DescId) (d : DescId) :
    State.msg { s with freeDescs := x } d = s.msg d := rfl
@[simp] theorem State.st_set_messages (s : State) (x : Vector (Option Message) 256) (a : StationId) :
    State.st { s with messages := x } a = s.st a := rfl
@[simp] theorem State.chan_set_messages (s : State) (x : Vector (Option Message) 256) (c : ChannelId) :
    State.chan { s with messages := x } c = s.chan c := rfl
@[simp] theorem State.lock_set_messages (s : State) (x : Vector (Option Message) 256) (l : LockId) :
    State.lock { s with messages := x } l = s.lock l := rfl
@[simp] theorem State.st_set_cellStore (s : State) (x : List (Nat × Word)) (a : StationId) :
    State.st { s with cellStore := x } a = s.st a := rfl
@[simp] theorem State.chan_set_cellStore (s : State) (x : List (Nat × Word)) (c : ChannelId) :
    State.chan { s with cellStore := x } c = s.chan c := rfl
@[simp] theorem State.lock_set_cellStore (s : State) (x : List (Nat × Word)) (l : LockId) :
    State.lock { s with cellStore := x } l = s.lock l := rfl
@[simp] theorem State.msg_set_cellStore (s : State) (x : List (Nat × Word)) (d : DescId) :
    State.msg { s with cellStore := x } d = s.msg d := rfl
@[simp] theorem State.st_set_roomQueue (s : State) (x : List RoomEntry) (a : StationId) :
    State.st { s with roomQueue := x } a = s.st a := rfl
@[simp] theorem State.chan_set_roomQueue (s : State) (x : List RoomEntry) (c : ChannelId) :
    State.chan { s with roomQueue := x } c = s.chan c := rfl
@[simp] theorem State.lock_set_roomQueue (s : State) (x : List RoomEntry) (l : LockId) :
    State.lock { s with roomQueue := x } l = s.lock l := rfl
@[simp] theorem State.msg_set_roomQueue (s : State) (x : List RoomEntry) (d : DescId) :
    State.msg { s with roomQueue := x } d = s.msg d := rfl
@[simp] theorem State.st_set_engine (s : State) (x : EngineState) (a : StationId) :
    State.st { s with engine := x } a = s.st a := rfl
@[simp] theorem State.st_set_gap (s : State) (x : Bool) (a : StationId) :
    State.st { s with gap := x } a = s.st a := rfl
@[simp] theorem State.chan_set_engine (s : State) (x : EngineState) (c : ChannelId) :
    State.chan { s with engine := x } c = s.chan c := rfl
@[simp] theorem State.chan_set_gap (s : State) (x : Bool) (c : ChannelId) :
    State.chan { s with gap := x } c = s.chan c := rfl
@[simp] theorem State.lock_set_engine (s : State) (x : EngineState) (l : LockId) :
    State.lock { s with engine := x } l = s.lock l := rfl
@[simp] theorem State.lock_set_gap (s : State) (x : Bool) (l : LockId) :
    State.lock { s with gap := x } l = s.lock l := rfl
@[simp] theorem State.msg_set_engine (s : State) (x : EngineState) (d : DescId) :
    State.msg { s with engine := x } d = s.msg d := rfl
@[simp] theorem State.msg_set_gap (s : State) (x : Bool) (d : DescId) :
    State.msg { s with gap := x } d = s.msg d := rfl
@[simp] theorem State.st_set_rrPointer (s : State) (x : StationId) (a : StationId) :
    State.st { s with rrPointer := x } a = s.st a := rfl
@[simp] theorem State.chan_set_rrPointer (s : State) (x : StationId) (c : ChannelId) :
    State.chan { s with rrPointer := x } c = s.chan c := rfl
@[simp] theorem State.lock_set_rrPointer (s : State) (x : StationId) (l : LockId) :
    State.lock { s with rrPointer := x } l = s.lock l := rfl
@[simp] theorem State.msg_set_rrPointer (s : State) (x : StationId) (d : DescId) :
    State.msg { s with rrPointer := x } d = s.msg d := rfl
@[simp] theorem State.st_set_burst (s : State) (x : Nat) (a : StationId) :
    State.st { s with burst := x } a = s.st a := rfl
@[simp] theorem State.chan_set_burst (s : State) (x : Nat) (c : ChannelId) :
    State.chan { s with burst := x } c = s.chan c := rfl
@[simp] theorem State.lock_set_burst (s : State) (x : Nat) (l : LockId) :
    State.lock { s with burst := x } l = s.lock l := rfl
@[simp] theorem State.msg_set_burst (s : State) (x : Nat) (d : DescId) :
    State.msg { s with burst := x } d = s.msg d := rfl
@[simp] theorem State.st_set_responseLimit (s : State) (x : Nat) (a : StationId) :
    State.st { s with responseLimit := x } a = s.st a := rfl
@[simp] theorem State.chan_set_responseLimit (s : State) (x : Nat) (c : ChannelId) :
    State.chan { s with responseLimit := x } c = s.chan c := rfl
@[simp] theorem State.lock_set_responseLimit (s : State) (x : Nat) (l : LockId) :
    State.lock { s with responseLimit := x } l = s.lock l := rfl
@[simp] theorem State.msg_set_responseLimit (s : State) (x : Nat) (d : DescId) :
    State.msg { s with responseLimit := x } d = s.msg d := rfl
@[simp] theorem State.st_set_retryBudget (s : State) (x : Nat) (a : StationId) :
    State.st { s with retryBudget := x } a = s.st a := rfl
@[simp] theorem State.chan_set_retryBudget (s : State) (x : Nat) (c : ChannelId) :
    State.chan { s with retryBudget := x } c = s.chan c := rfl
@[simp] theorem State.lock_set_retryBudget (s : State) (x : Nat) (l : LockId) :
    State.lock { s with retryBudget := x } l = s.lock l := rfl
@[simp] theorem State.msg_set_retryBudget (s : State) (x : Nat) (d : DescId) :
    State.msg { s with retryBudget := x } d = s.msg d := rfl
@[simp] theorem State.st_set_burstLimit (s : State) (x : Nat) (a : StationId) :
    State.st { s with burstLimit := x } a = s.st a := rfl
@[simp] theorem State.chan_set_burstLimit (s : State) (x : Nat) (c : ChannelId) :
    State.chan { s with burstLimit := x } c = s.chan c := rfl
@[simp] theorem State.lock_set_burstLimit (s : State) (x : Nat) (l : LockId) :
    State.lock { s with burstLimit := x } l = s.lock l := rfl
@[simp] theorem State.msg_set_burstLimit (s : State) (x : Nat) (d : DescId) :
    State.msg { s with burstLimit := x } d = s.msg d := rfl
@[simp] theorem State.st_set_tickDiv (s : State) (x : Nat) (a : StationId) :
    State.st { s with tickDiv := x } a = s.st a := rfl
@[simp] theorem State.chan_set_tickDiv (s : State) (x : Nat) (c : ChannelId) :
    State.chan { s with tickDiv := x } c = s.chan c := rfl
@[simp] theorem State.lock_set_tickDiv (s : State) (x : Nat) (l : LockId) :
    State.lock { s with tickDiv := x } l = s.lock l := rfl
@[simp] theorem State.msg_set_tickDiv (s : State) (x : Nat) (d : DescId) :
    State.msg { s with tickDiv := x } d = s.msg d := rfl
@[simp] theorem State.st_set_tickCount (s : State) (x : Nat) (a : StationId) :
    State.st { s with tickCount := x } a = s.st a := rfl
@[simp] theorem State.chan_set_tickCount (s : State) (x : Nat) (c : ChannelId) :
    State.chan { s with tickCount := x } c = s.chan c := rfl
@[simp] theorem State.lock_set_tickCount (s : State) (x : Nat) (l : LockId) :
    State.lock { s with tickCount := x } l = s.lock l := rfl
@[simp] theorem State.msg_set_tickCount (s : State) (x : Nat) (d : DescId) :
    State.msg { s with tickCount := x } d = s.msg d := rfl
@[simp] theorem State.st_set_answer (s : State) (x : Option SlaveAnswer) (a : StationId) :
    State.st { s with answer := x } a = s.st a := rfl
@[simp] theorem State.chan_set_answer (s : State) (x : Option SlaveAnswer) (c : ChannelId) :
    State.chan { s with answer := x } c = s.chan c := rfl
@[simp] theorem State.lock_set_answer (s : State) (x : Option SlaveAnswer) (l : LockId) :
    State.lock { s with answer := x } l = s.lock l := rfl
@[simp] theorem State.msg_set_answer (s : State) (x : Option SlaveAnswer) (d : DescId) :
    State.msg { s with answer := x } d = s.msg d := rfl
@[simp] theorem State.st_set_pending (s : State) (x : List Instr) (a : StationId) :
    State.st { s with pending := x } a = s.st a := rfl
@[simp] theorem State.chan_set_pending (s : State) (x : List Instr) (c : ChannelId) :
    State.chan { s with pending := x } c = s.chan c := rfl
@[simp] theorem State.lock_set_pending (s : State) (x : List Instr) (l : LockId) :
    State.lock { s with pending := x } l = s.lock l := rfl
@[simp] theorem State.msg_set_pending (s : State) (x : List Instr) (d : DescId) :
    State.msg { s with pending := x } d = s.msg d := rfl
@[simp] theorem State.st_set_bus (s : State) (x : EngineState) (g : Bool) (a : StationId) :
    State.st { s with engine := x, gap := g } a = s.st a := rfl
@[simp] theorem State.chan_set_bus (s : State) (x : EngineState) (g : Bool) (c : ChannelId) :
    State.chan { s with engine := x, gap := g } c = s.chan c := rfl
@[simp] theorem State.lock_set_bus (s : State) (x : EngineState) (g : Bool) (l : LockId) :
    State.lock { s with engine := x, gap := g } l = s.lock l := rfl
@[simp] theorem State.msg_set_bus (s : State) (x : EngineState) (g : Bool) (d : DescId) :
    State.msg { s with engine := x, gap := g } d = s.msg d := rfl
@[simp] theorem State.st_set_store (s : State) (x : List CellId) (y : List DescId)
    (z : Vector (Option Message) 256) (a : StationId) :
    State.st { s with freeCells := x, freeDescs := y, messages := z } a = s.st a := rfl
@[simp] theorem State.chan_set_store (s : State) (x : List CellId) (y : List DescId)
    (z : Vector (Option Message) 256) (c : ChannelId) :
    State.chan { s with freeCells := x, freeDescs := y, messages := z } c = s.chan c := rfl
@[simp] theorem State.lock_set_store (s : State) (x : List CellId) (y : List DescId)
    (z : Vector (Option Message) 256) (l : LockId) :
    State.lock { s with freeCells := x, freeDescs := y, messages := z } l = s.lock l := rfl

/-! ### Class queues -/

@[simp] theorem StationRec.queue_setQueue_same (r : StationRec) (c : ClassId) (q : List DescId) :
    (r.setQueue c q).queue c = q := by
  simp [StationRec.queue, StationRec.setQueue]

@[simp] theorem StationRec.queue_setQueue_ne (r : StationRec) {c e : ClassId} (q : List DescId) (h : e ≠ c) :
    (r.setQueue c q).queue e = r.queue e := by
  simp [StationRec.queue, StationRec.setQueue, h]

end Sys2Proof.Machine
end

