-- ==== Sys2Proof/Laws/Frames.lean ====
section
/-! SUPPORT. For each shared operation, what it leaves alone: the fields of State it keeps (`_frame`), the tables of State
it keeps, entry by entry (`_reads`), and the fields of every station it keeps (`_stations`); for an operation on one
station, that every other station is the same (`_other`). Each lemma is a conjunction, so that simp reads it as one rule
for each field. -/

namespace Sys2Proof.Machine

@[simp] theorem answerComplete_frame (data : Option Word) (s : State) :
    (answerComplete data s).stations = s.stations ∧
    (answerComplete data s).supervisor = s.supervisor ∧
    (answerComplete data s).channels = s.channels ∧
    (answerComplete data s).locks = s.locks ∧
    (answerComplete data s).freeCells = s.freeCells ∧
    (answerComplete data s).freeDescs = s.freeDescs ∧
    (answerComplete data s).messages = s.messages ∧
    (answerComplete data s).cellStore = s.cellStore ∧
    (answerComplete data s).roomQueue = s.roomQueue ∧
    (answerComplete data s).engine = s.engine ∧
    (answerComplete data s).gap = s.gap ∧
    (answerComplete data s).rrPointer = s.rrPointer ∧
    (answerComplete data s).burst = s.burst ∧
    (answerComplete data s).responseLimit = s.responseLimit ∧
    (answerComplete data s).retryBudget = s.retryBudget ∧
    (answerComplete data s).burstLimit = s.burstLimit ∧
    (answerComplete data s).tickDiv = s.tickDiv ∧
    (answerComplete data s).tickCount = s.tickCount ∧
    (answerComplete data s).pending = s.pending := by simp [answerComplete]

@[simp] theorem answerComplete_reads (data : Option Word) (s : State) :
    (∀ b', (answerComplete data s).st b' = s.st b') ∧ (∀ c', (answerComplete data s).chan c' = s.chan c') ∧ (∀ l', (answerComplete data s).lock l' = s.lock l') ∧ (∀ d', (answerComplete data s).msg d' = s.msg d') := by
  simp [State.st, State.chan, State.lock, State.msg]

@[simp] theorem answerComplete_stations (data : Option Word) (s : State) (b : StationId) :
    ((answerComplete data s).st b).state = (s.st b).state ∧
    ((answerComplete data s).st b).seqCounter = (s.st b).seqCounter ∧
    ((answerComplete data s).st b).roomWaitLimit = (s.st b).roomWaitLimit ∧
    ((answerComplete data s).st b).lockWaitLimit = (s.st b).lockWaitLimit ∧
    ((answerComplete data s).st b).result = (s.st b).result ∧
    ((answerComplete data s).st b).supOperand = (s.st b).supOperand ∧
    ((answerComplete data s).st b).staging = (s.st b).staging ∧
    ((answerComplete data s).st b).sendTag = (s.st b).sendTag ∧
    ((answerComplete data s).st b).send = (s.st b).send ∧
    ((answerComplete data s).st b).sendResult = (s.st b).sendResult ∧
    ((answerComplete data s).st b).queues = (s.st b).queues ∧
    ((answerComplete data s).st b).limits = (s.st b).limits ∧
    ((answerComplete data s).st b).readSlot = (s.st b).readSlot ∧
    ((answerComplete data s).st b).confirms = (s.st b).confirms ∧
    ((answerComplete data s).st b).confirmOverflow = (s.st b).confirmOverflow ∧
    ((answerComplete data s).st b).wait = (s.st b).wait ∧
    ((answerComplete data s).st b).lastWait = (s.st b).lastWait ∧
    ((answerComplete data s).st b).ring = (s.st b).ring ∧
    ((answerComplete data s).st b).pendingFlags = (s.st b).pendingFlags ∧
    ((answerComplete data s).st b).enables = (s.st b).enables ∧
    ((answerComplete data s).st b).disarm = (s.st b).disarm ∧
    ((answerComplete data s).st b).levels = (s.st b).levels ∧
    ((answerComplete data s).st b).vectorBase = (s.st b).vectorBase ∧
    ((answerComplete data s).st b).inService = (s.st b).inService ∧
    ((answerComplete data s).st b).fault = (s.st b).fault ∧
    ((answerComplete data s).st b).multiple = (s.st b).multiple := by simp [answerComplete]

@[simp] theorem answerFault_frame (write : Bool) (s : State) :
    (answerFault write s).stations = s.stations ∧
    (answerFault write s).supervisor = s.supervisor ∧
    (answerFault write s).channels = s.channels ∧
    (answerFault write s).locks = s.locks ∧
    (answerFault write s).freeCells = s.freeCells ∧
    (answerFault write s).freeDescs = s.freeDescs ∧
    (answerFault write s).messages = s.messages ∧
    (answerFault write s).cellStore = s.cellStore ∧
    (answerFault write s).roomQueue = s.roomQueue ∧
    (answerFault write s).engine = s.engine ∧
    (answerFault write s).gap = s.gap ∧
    (answerFault write s).rrPointer = s.rrPointer ∧
    (answerFault write s).burst = s.burst ∧
    (answerFault write s).responseLimit = s.responseLimit ∧
    (answerFault write s).retryBudget = s.retryBudget ∧
    (answerFault write s).burstLimit = s.burstLimit ∧
    (answerFault write s).tickDiv = s.tickDiv ∧
    (answerFault write s).tickCount = s.tickCount ∧
    (answerFault write s).pending = s.pending := by simp [answerFault]

@[simp] theorem answerFault_reads (write : Bool) (s : State) :
    (∀ b', (answerFault write s).st b' = s.st b') ∧ (∀ c', (answerFault write s).chan c' = s.chan c') ∧ (∀ l', (answerFault write s).lock l' = s.lock l') ∧ (∀ d', (answerFault write s).msg d' = s.msg d') := by
  simp [State.st, State.chan, State.lock, State.msg]

@[simp] theorem answerFault_stations (write : Bool) (s : State) (b : StationId) :
    ((answerFault write s).st b).state = (s.st b).state ∧
    ((answerFault write s).st b).seqCounter = (s.st b).seqCounter ∧
    ((answerFault write s).st b).roomWaitLimit = (s.st b).roomWaitLimit ∧
    ((answerFault write s).st b).lockWaitLimit = (s.st b).lockWaitLimit ∧
    ((answerFault write s).st b).result = (s.st b).result ∧
    ((answerFault write s).st b).supOperand = (s.st b).supOperand ∧
    ((answerFault write s).st b).staging = (s.st b).staging ∧
    ((answerFault write s).st b).sendTag = (s.st b).sendTag ∧
    ((answerFault write s).st b).send = (s.st b).send ∧
    ((answerFault write s).st b).sendResult = (s.st b).sendResult ∧
    ((answerFault write s).st b).queues = (s.st b).queues ∧
    ((answerFault write s).st b).limits = (s.st b).limits ∧
    ((answerFault write s).st b).readSlot = (s.st b).readSlot ∧
    ((answerFault write s).st b).confirms = (s.st b).confirms ∧
    ((answerFault write s).st b).confirmOverflow = (s.st b).confirmOverflow ∧
    ((answerFault write s).st b).wait = (s.st b).wait ∧
    ((answerFault write s).st b).lastWait = (s.st b).lastWait ∧
    ((answerFault write s).st b).ring = (s.st b).ring ∧
    ((answerFault write s).st b).pendingFlags = (s.st b).pendingFlags ∧
    ((answerFault write s).st b).enables = (s.st b).enables ∧
    ((answerFault write s).st b).disarm = (s.st b).disarm ∧
    ((answerFault write s).st b).levels = (s.st b).levels ∧
    ((answerFault write s).st b).vectorBase = (s.st b).vectorBase ∧
    ((answerFault write s).st b).inService = (s.st b).inService ∧
    ((answerFault write s).st b).fault = (s.st b).fault ∧
    ((answerFault write s).st b).multiple = (s.st b).multiple := by simp [answerFault]

@[simp] theorem unanswered_frame  (s : State) :
    (unanswered s).stations = s.stations ∧
    (unanswered s).supervisor = s.supervisor ∧
    (unanswered s).channels = s.channels ∧
    (unanswered s).locks = s.locks ∧
    (unanswered s).freeCells = s.freeCells ∧
    (unanswered s).freeDescs = s.freeDescs ∧
    (unanswered s).messages = s.messages ∧
    (unanswered s).cellStore = s.cellStore ∧
    (unanswered s).roomQueue = s.roomQueue ∧
    (unanswered s).engine = s.engine ∧
    (unanswered s).gap = s.gap ∧
    (unanswered s).rrPointer = s.rrPointer ∧
    (unanswered s).burst = s.burst ∧
    (unanswered s).responseLimit = s.responseLimit ∧
    (unanswered s).retryBudget = s.retryBudget ∧
    (unanswered s).burstLimit = s.burstLimit ∧
    (unanswered s).tickDiv = s.tickDiv ∧
    (unanswered s).tickCount = s.tickCount ∧
    (unanswered s).pending = s.pending := by simp [unanswered]

@[simp] theorem unanswered_reads  (s : State) :
    (∀ b', (unanswered s).st b' = s.st b') ∧ (∀ c', (unanswered s).chan c' = s.chan c') ∧ (∀ l', (unanswered s).lock l' = s.lock l') ∧ (∀ d', (unanswered s).msg d' = s.msg d') := by
  simp [State.st, State.chan, State.lock, State.msg]

@[simp] theorem unanswered_stations  (s : State) (b : StationId) :
    ((unanswered s).st b).state = (s.st b).state ∧
    ((unanswered s).st b).seqCounter = (s.st b).seqCounter ∧
    ((unanswered s).st b).roomWaitLimit = (s.st b).roomWaitLimit ∧
    ((unanswered s).st b).lockWaitLimit = (s.st b).lockWaitLimit ∧
    ((unanswered s).st b).result = (s.st b).result ∧
    ((unanswered s).st b).supOperand = (s.st b).supOperand ∧
    ((unanswered s).st b).staging = (s.st b).staging ∧
    ((unanswered s).st b).sendTag = (s.st b).sendTag ∧
    ((unanswered s).st b).send = (s.st b).send ∧
    ((unanswered s).st b).sendResult = (s.st b).sendResult ∧
    ((unanswered s).st b).queues = (s.st b).queues ∧
    ((unanswered s).st b).limits = (s.st b).limits ∧
    ((unanswered s).st b).readSlot = (s.st b).readSlot ∧
    ((unanswered s).st b).confirms = (s.st b).confirms ∧
    ((unanswered s).st b).confirmOverflow = (s.st b).confirmOverflow ∧
    ((unanswered s).st b).wait = (s.st b).wait ∧
    ((unanswered s).st b).lastWait = (s.st b).lastWait ∧
    ((unanswered s).st b).ring = (s.st b).ring ∧
    ((unanswered s).st b).pendingFlags = (s.st b).pendingFlags ∧
    ((unanswered s).st b).enables = (s.st b).enables ∧
    ((unanswered s).st b).disarm = (s.st b).disarm ∧
    ((unanswered s).st b).levels = (s.st b).levels ∧
    ((unanswered s).st b).vectorBase = (s.st b).vectorBase ∧
    ((unanswered s).st b).inService = (s.st b).inService ∧
    ((unanswered s).st b).fault = (s.st b).fault ∧
    ((unanswered s).st b).multiple = (s.st b).multiple := by simp [unanswered]

@[simp] theorem writeResult_frame (a : StationId) (command : BitVec 8) (code : ResultCode) (s : State) :
    (writeResult a command code s).supervisor = s.supervisor ∧
    (writeResult a command code s).channels = s.channels ∧
    (writeResult a command code s).locks = s.locks ∧
    (writeResult a command code s).freeCells = s.freeCells ∧
    (writeResult a command code s).freeDescs = s.freeDescs ∧
    (writeResult a command code s).messages = s.messages ∧
    (writeResult a command code s).cellStore = s.cellStore ∧
    (writeResult a command code s).roomQueue = s.roomQueue ∧
    (writeResult a command code s).engine = s.engine ∧
    (writeResult a command code s).gap = s.gap ∧
    (writeResult a command code s).rrPointer = s.rrPointer ∧
    (writeResult a command code s).burst = s.burst ∧
    (writeResult a command code s).responseLimit = s.responseLimit ∧
    (writeResult a command code s).retryBudget = s.retryBudget ∧
    (writeResult a command code s).burstLimit = s.burstLimit ∧
    (writeResult a command code s).tickDiv = s.tickDiv ∧
    (writeResult a command code s).tickCount = s.tickCount ∧
    (writeResult a command code s).answer = s.answer ∧
    (writeResult a command code s).pending = s.pending := by simp [writeResult]

@[simp] theorem writeResult_reads (a : StationId) (command : BitVec 8) (code : ResultCode) (s : State) :
    (∀ c', (writeResult a command code s).chan c' = s.chan c') ∧ (∀ l', (writeResult a command code s).lock l' = s.lock l') ∧ (∀ d', (writeResult a command code s).msg d' = s.msg d') := by
  simp [State.chan, State.lock, State.msg]

@[simp] theorem writeResult_stations (a : StationId) (command : BitVec 8) (code : ResultCode) (s : State) (b : StationId) :
    ((writeResult a command code s).st b).state = (s.st b).state ∧
    ((writeResult a command code s).st b).seqCounter = (s.st b).seqCounter ∧
    ((writeResult a command code s).st b).roomWaitLimit = (s.st b).roomWaitLimit ∧
    ((writeResult a command code s).st b).lockWaitLimit = (s.st b).lockWaitLimit ∧
    ((writeResult a command code s).st b).supOperand = (s.st b).supOperand ∧
    ((writeResult a command code s).st b).staging = (s.st b).staging ∧
    ((writeResult a command code s).st b).sendTag = (s.st b).sendTag ∧
    ((writeResult a command code s).st b).send = (s.st b).send ∧
    ((writeResult a command code s).st b).sendResult = (s.st b).sendResult ∧
    ((writeResult a command code s).st b).queues = (s.st b).queues ∧
    ((writeResult a command code s).st b).limits = (s.st b).limits ∧
    ((writeResult a command code s).st b).readSlot = (s.st b).readSlot ∧
    ((writeResult a command code s).st b).confirms = (s.st b).confirms ∧
    ((writeResult a command code s).st b).confirmOverflow = (s.st b).confirmOverflow ∧
    ((writeResult a command code s).st b).wait = (s.st b).wait ∧
    ((writeResult a command code s).st b).lastWait = (s.st b).lastWait ∧
    ((writeResult a command code s).st b).ring = (s.st b).ring ∧
    ((writeResult a command code s).st b).pendingFlags = (s.st b).pendingFlags ∧
    ((writeResult a command code s).st b).enables = (s.st b).enables ∧
    ((writeResult a command code s).st b).disarm = (s.st b).disarm ∧
    ((writeResult a command code s).st b).levels = (s.st b).levels ∧
    ((writeResult a command code s).st b).vectorBase = (s.st b).vectorBase ∧
    ((writeResult a command code s).st b).inService = (s.st b).inService ∧
    ((writeResult a command code s).st b).fault = (s.st b).fault ∧
    ((writeResult a command code s).st b).multiple = (s.st b).multiple := by
  by_cases h : b = a
  · subst h; simp [writeResult]
  · simp [writeResult, h]

@[simp] theorem setSource_frame (a : StationId) (n : SourceId) (s : State) :
    (setSource a n s).supervisor = s.supervisor ∧
    (setSource a n s).channels = s.channels ∧
    (setSource a n s).locks = s.locks ∧
    (setSource a n s).freeCells = s.freeCells ∧
    (setSource a n s).freeDescs = s.freeDescs ∧
    (setSource a n s).messages = s.messages ∧
    (setSource a n s).cellStore = s.cellStore ∧
    (setSource a n s).roomQueue = s.roomQueue ∧
    (setSource a n s).engine = s.engine ∧
    (setSource a n s).gap = s.gap ∧
    (setSource a n s).rrPointer = s.rrPointer ∧
    (setSource a n s).burst = s.burst ∧
    (setSource a n s).responseLimit = s.responseLimit ∧
    (setSource a n s).retryBudget = s.retryBudget ∧
    (setSource a n s).burstLimit = s.burstLimit ∧
    (setSource a n s).tickDiv = s.tickDiv ∧
    (setSource a n s).tickCount = s.tickCount ∧
    (setSource a n s).answer = s.answer ∧
    (setSource a n s).pending = s.pending := by simp [setSource]

@[simp] theorem setSource_reads (a : StationId) (n : SourceId) (s : State) :
    (∀ c', (setSource a n s).chan c' = s.chan c') ∧ (∀ l', (setSource a n s).lock l' = s.lock l') ∧ (∀ d', (setSource a n s).msg d' = s.msg d') := by
  simp [State.chan, State.lock, State.msg]

@[simp] theorem setSource_stations (a : StationId) (n : SourceId) (s : State) (b : StationId) :
    ((setSource a n s).st b).state = (s.st b).state ∧
    ((setSource a n s).st b).seqCounter = (s.st b).seqCounter ∧
    ((setSource a n s).st b).roomWaitLimit = (s.st b).roomWaitLimit ∧
    ((setSource a n s).st b).lockWaitLimit = (s.st b).lockWaitLimit ∧
    ((setSource a n s).st b).result = (s.st b).result ∧
    ((setSource a n s).st b).supOperand = (s.st b).supOperand ∧
    ((setSource a n s).st b).staging = (s.st b).staging ∧
    ((setSource a n s).st b).sendTag = (s.st b).sendTag ∧
    ((setSource a n s).st b).send = (s.st b).send ∧
    ((setSource a n s).st b).sendResult = (s.st b).sendResult ∧
    ((setSource a n s).st b).queues = (s.st b).queues ∧
    ((setSource a n s).st b).limits = (s.st b).limits ∧
    ((setSource a n s).st b).readSlot = (s.st b).readSlot ∧
    ((setSource a n s).st b).confirms = (s.st b).confirms ∧
    ((setSource a n s).st b).confirmOverflow = (s.st b).confirmOverflow ∧
    ((setSource a n s).st b).wait = (s.st b).wait ∧
    ((setSource a n s).st b).lastWait = (s.st b).lastWait ∧
    ((setSource a n s).st b).ring = (s.st b).ring ∧
    ((setSource a n s).st b).enables = (s.st b).enables ∧
    ((setSource a n s).st b).disarm = (s.st b).disarm ∧
    ((setSource a n s).st b).levels = (s.st b).levels ∧
    ((setSource a n s).st b).vectorBase = (s.st b).vectorBase ∧
    ((setSource a n s).st b).inService = (s.st b).inService ∧
    ((setSource a n s).st b).fault = (s.st b).fault ∧
    ((setSource a n s).st b).multiple = (s.st b).multiple := by
  by_cases h : b = a
  · subst h; by_cases ho : (s.st b).state = .online <;> simp [setSource, ho]
  · simp [setSource, h]

@[simp] theorem recordFault_frame (a : StationId) (code : FaultCode) (detail : Word) (s : State) :
    (recordFault a code detail s).supervisor = s.supervisor ∧
    (recordFault a code detail s).channels = s.channels ∧
    (recordFault a code detail s).locks = s.locks ∧
    (recordFault a code detail s).freeCells = s.freeCells ∧
    (recordFault a code detail s).freeDescs = s.freeDescs ∧
    (recordFault a code detail s).messages = s.messages ∧
    (recordFault a code detail s).cellStore = s.cellStore ∧
    (recordFault a code detail s).roomQueue = s.roomQueue ∧
    (recordFault a code detail s).engine = s.engine ∧
    (recordFault a code detail s).gap = s.gap ∧
    (recordFault a code detail s).rrPointer = s.rrPointer ∧
    (recordFault a code detail s).burst = s.burst ∧
    (recordFault a code detail s).responseLimit = s.responseLimit ∧
    (recordFault a code detail s).retryBudget = s.retryBudget ∧
    (recordFault a code detail s).burstLimit = s.burstLimit ∧
    (recordFault a code detail s).tickDiv = s.tickDiv ∧
    (recordFault a code detail s).tickCount = s.tickCount ∧
    (recordFault a code detail s).answer = s.answer ∧
    (recordFault a code detail s).pending = s.pending := by simp [recordFault]

@[simp] theorem recordFault_reads (a : StationId) (code : FaultCode) (detail : Word) (s : State) :
    (∀ c', (recordFault a code detail s).chan c' = s.chan c') ∧ (∀ l', (recordFault a code detail s).lock l' = s.lock l') ∧ (∀ d', (recordFault a code detail s).msg d' = s.msg d') := by
  simp [State.chan, State.lock, State.msg]

@[simp] theorem recordFault_stations (a : StationId) (code : FaultCode) (detail : Word) (s : State) (b : StationId) :
    ((recordFault a code detail s).st b).state = (s.st b).state ∧
    ((recordFault a code detail s).st b).seqCounter = (s.st b).seqCounter ∧
    ((recordFault a code detail s).st b).roomWaitLimit = (s.st b).roomWaitLimit ∧
    ((recordFault a code detail s).st b).lockWaitLimit = (s.st b).lockWaitLimit ∧
    ((recordFault a code detail s).st b).result = (s.st b).result ∧
    ((recordFault a code detail s).st b).supOperand = (s.st b).supOperand ∧
    ((recordFault a code detail s).st b).staging = (s.st b).staging ∧
    ((recordFault a code detail s).st b).sendTag = (s.st b).sendTag ∧
    ((recordFault a code detail s).st b).send = (s.st b).send ∧
    ((recordFault a code detail s).st b).sendResult = (s.st b).sendResult ∧
    ((recordFault a code detail s).st b).queues = (s.st b).queues ∧
    ((recordFault a code detail s).st b).limits = (s.st b).limits ∧
    ((recordFault a code detail s).st b).readSlot = (s.st b).readSlot ∧
    ((recordFault a code detail s).st b).confirms = (s.st b).confirms ∧
    ((recordFault a code detail s).st b).confirmOverflow = (s.st b).confirmOverflow ∧
    ((recordFault a code detail s).st b).wait = (s.st b).wait ∧
    ((recordFault a code detail s).st b).lastWait = (s.st b).lastWait ∧
    ((recordFault a code detail s).st b).ring = (s.st b).ring ∧
    ((recordFault a code detail s).st b).enables = (s.st b).enables ∧
    ((recordFault a code detail s).st b).disarm = (s.st b).disarm ∧
    ((recordFault a code detail s).st b).levels = (s.st b).levels ∧
    ((recordFault a code detail s).st b).vectorBase = (s.st b).vectorBase ∧
    ((recordFault a code detail s).st b).inService = (s.st b).inService := by
  by_cases h : b = a
  · subst h; simp [recordFault]
  · simp [recordFault, h]

@[simp] theorem endWait_frame (a : StationId) (o : WaitOutcome) (s : State) :
    (endWait a o s).supervisor = s.supervisor ∧
    (endWait a o s).channels = s.channels ∧
    (endWait a o s).locks = s.locks ∧
    (endWait a o s).freeCells = s.freeCells ∧
    (endWait a o s).freeDescs = s.freeDescs ∧
    (endWait a o s).messages = s.messages ∧
    (endWait a o s).cellStore = s.cellStore ∧
    (endWait a o s).roomQueue = s.roomQueue ∧
    (endWait a o s).engine = s.engine ∧
    (endWait a o s).gap = s.gap ∧
    (endWait a o s).rrPointer = s.rrPointer ∧
    (endWait a o s).burst = s.burst ∧
    (endWait a o s).responseLimit = s.responseLimit ∧
    (endWait a o s).retryBudget = s.retryBudget ∧
    (endWait a o s).burstLimit = s.burstLimit ∧
    (endWait a o s).tickDiv = s.tickDiv ∧
    (endWait a o s).tickCount = s.tickCount ∧
    (endWait a o s).answer = s.answer ∧
    (endWait a o s).pending = s.pending := by simp [endWait]

@[simp] theorem endWait_reads (a : StationId) (o : WaitOutcome) (s : State) :
    (∀ c', (endWait a o s).chan c' = s.chan c') ∧ (∀ l', (endWait a o s).lock l' = s.lock l') ∧ (∀ d', (endWait a o s).msg d' = s.msg d') := by
  simp [State.chan, State.lock, State.msg]

@[simp] theorem endWait_stations (a : StationId) (o : WaitOutcome) (s : State) (b : StationId) :
    ((endWait a o s).st b).state = (s.st b).state ∧
    ((endWait a o s).st b).seqCounter = (s.st b).seqCounter ∧
    ((endWait a o s).st b).roomWaitLimit = (s.st b).roomWaitLimit ∧
    ((endWait a o s).st b).lockWaitLimit = (s.st b).lockWaitLimit ∧
    ((endWait a o s).st b).result = (s.st b).result ∧
    ((endWait a o s).st b).supOperand = (s.st b).supOperand ∧
    ((endWait a o s).st b).staging = (s.st b).staging ∧
    ((endWait a o s).st b).sendTag = (s.st b).sendTag ∧
    ((endWait a o s).st b).send = (s.st b).send ∧
    ((endWait a o s).st b).sendResult = (s.st b).sendResult ∧
    ((endWait a o s).st b).queues = (s.st b).queues ∧
    ((endWait a o s).st b).limits = (s.st b).limits ∧
    ((endWait a o s).st b).readSlot = (s.st b).readSlot ∧
    ((endWait a o s).st b).confirms = (s.st b).confirms ∧
    ((endWait a o s).st b).confirmOverflow = (s.st b).confirmOverflow ∧
    ((endWait a o s).st b).ring = (s.st b).ring ∧
    ((endWait a o s).st b).pendingFlags = (s.st b).pendingFlags ∧
    ((endWait a o s).st b).enables = (s.st b).enables ∧
    ((endWait a o s).st b).disarm = (s.st b).disarm ∧
    ((endWait a o s).st b).levels = (s.st b).levels ∧
    ((endWait a o s).st b).vectorBase = (s.st b).vectorBase ∧
    ((endWait a o s).st b).inService = (s.st b).inService ∧
    ((endWait a o s).st b).fault = (s.st b).fault ∧
    ((endWait a o s).st b).multiple = (s.st b).multiple := by
  by_cases h : b = a
  · subst h; simp [endWait]
  · simp [endWait, h]

@[simp] theorem handoffAmong_frame (l : LockId) (ws : List StationId) (s : State) :
    (handoffAmong l ws s).supervisor = s.supervisor ∧
    (handoffAmong l ws s).channels = s.channels ∧
    (handoffAmong l ws s).freeCells = s.freeCells ∧
    (handoffAmong l ws s).freeDescs = s.freeDescs ∧
    (handoffAmong l ws s).messages = s.messages ∧
    (handoffAmong l ws s).cellStore = s.cellStore ∧
    (handoffAmong l ws s).roomQueue = s.roomQueue ∧
    (handoffAmong l ws s).engine = s.engine ∧
    (handoffAmong l ws s).gap = s.gap ∧
    (handoffAmong l ws s).rrPointer = s.rrPointer ∧
    (handoffAmong l ws s).burst = s.burst ∧
    (handoffAmong l ws s).responseLimit = s.responseLimit ∧
    (handoffAmong l ws s).retryBudget = s.retryBudget ∧
    (handoffAmong l ws s).burstLimit = s.burstLimit ∧
    (handoffAmong l ws s).tickDiv = s.tickDiv ∧
    (handoffAmong l ws s).tickCount = s.tickCount ∧
    (handoffAmong l ws s).answer = s.answer ∧
    (handoffAmong l ws s).pending = s.pending := by
  induction ws generalizing s with
  | nil => simp [handoffAmong]
  | cons w rest ih =>
    unfold handoffAmong
    split
    · simp
    · simp [ih]

@[simp] theorem handoffAmong_reads (l : LockId) (ws : List StationId) (s : State) :
    (∀ c', (handoffAmong l ws s).chan c' = s.chan c') ∧ (∀ d', (handoffAmong l ws s).msg d' = s.msg d') := by
  simp [State.chan, State.msg]

@[simp] theorem handoffAmong_stations (l : LockId) (ws : List StationId) (s : State) (b : StationId) :
    ((handoffAmong l ws s).st b).state = (s.st b).state ∧
    ((handoffAmong l ws s).st b).seqCounter = (s.st b).seqCounter ∧
    ((handoffAmong l ws s).st b).roomWaitLimit = (s.st b).roomWaitLimit ∧
    ((handoffAmong l ws s).st b).lockWaitLimit = (s.st b).lockWaitLimit ∧
    ((handoffAmong l ws s).st b).result = (s.st b).result ∧
    ((handoffAmong l ws s).st b).supOperand = (s.st b).supOperand ∧
    ((handoffAmong l ws s).st b).staging = (s.st b).staging ∧
    ((handoffAmong l ws s).st b).sendTag = (s.st b).sendTag ∧
    ((handoffAmong l ws s).st b).send = (s.st b).send ∧
    ((handoffAmong l ws s).st b).sendResult = (s.st b).sendResult ∧
    ((handoffAmong l ws s).st b).queues = (s.st b).queues ∧
    ((handoffAmong l ws s).st b).limits = (s.st b).limits ∧
    ((handoffAmong l ws s).st b).readSlot = (s.st b).readSlot ∧
    ((handoffAmong l ws s).st b).confirms = (s.st b).confirms ∧
    ((handoffAmong l ws s).st b).confirmOverflow = (s.st b).confirmOverflow ∧
    ((handoffAmong l ws s).st b).ring = (s.st b).ring ∧
    ((handoffAmong l ws s).st b).enables = (s.st b).enables ∧
    ((handoffAmong l ws s).st b).disarm = (s.st b).disarm ∧
    ((handoffAmong l ws s).st b).levels = (s.st b).levels ∧
    ((handoffAmong l ws s).st b).vectorBase = (s.st b).vectorBase ∧
    ((handoffAmong l ws s).st b).inService = (s.st b).inService ∧
    ((handoffAmong l ws s).st b).fault = (s.st b).fault ∧
    ((handoffAmong l ws s).st b).multiple = (s.st b).multiple := by
  induction ws generalizing s with
  | nil => simp [handoffAmong]
  | cons w rest ih =>
    unfold handoffAmong
    split
    · simp
    · simp [ih]

@[simp] theorem handoff_frame (l : LockId) (s : State) :
    (handoff l s).supervisor = s.supervisor ∧
    (handoff l s).channels = s.channels ∧
    (handoff l s).freeCells = s.freeCells ∧
    (handoff l s).freeDescs = s.freeDescs ∧
    (handoff l s).messages = s.messages ∧
    (handoff l s).cellStore = s.cellStore ∧
    (handoff l s).roomQueue = s.roomQueue ∧
    (handoff l s).engine = s.engine ∧
    (handoff l s).gap = s.gap ∧
    (handoff l s).rrPointer = s.rrPointer ∧
    (handoff l s).burst = s.burst ∧
    (handoff l s).responseLimit = s.responseLimit ∧
    (handoff l s).retryBudget = s.retryBudget ∧
    (handoff l s).burstLimit = s.burstLimit ∧
    (handoff l s).tickDiv = s.tickDiv ∧
    (handoff l s).tickCount = s.tickCount ∧
    (handoff l s).answer = s.answer ∧
    (handoff l s).pending = s.pending := by simp [handoff]

@[simp] theorem handoff_reads (l : LockId) (s : State) :
    (∀ c', (handoff l s).chan c' = s.chan c') ∧ (∀ d', (handoff l s).msg d' = s.msg d') := by
  simp [State.chan, State.msg]

@[simp] theorem handoff_stations (l : LockId) (s : State) (b : StationId) :
    ((handoff l s).st b).state = (s.st b).state ∧
    ((handoff l s).st b).seqCounter = (s.st b).seqCounter ∧
    ((handoff l s).st b).roomWaitLimit = (s.st b).roomWaitLimit ∧
    ((handoff l s).st b).lockWaitLimit = (s.st b).lockWaitLimit ∧
    ((handoff l s).st b).result = (s.st b).result ∧
    ((handoff l s).st b).supOperand = (s.st b).supOperand ∧
    ((handoff l s).st b).staging = (s.st b).staging ∧
    ((handoff l s).st b).sendTag = (s.st b).sendTag ∧
    ((handoff l s).st b).send = (s.st b).send ∧
    ((handoff l s).st b).sendResult = (s.st b).sendResult ∧
    ((handoff l s).st b).queues = (s.st b).queues ∧
    ((handoff l s).st b).limits = (s.st b).limits ∧
    ((handoff l s).st b).readSlot = (s.st b).readSlot ∧
    ((handoff l s).st b).confirms = (s.st b).confirms ∧
    ((handoff l s).st b).confirmOverflow = (s.st b).confirmOverflow ∧
    ((handoff l s).st b).ring = (s.st b).ring ∧
    ((handoff l s).st b).enables = (s.st b).enables ∧
    ((handoff l s).st b).disarm = (s.st b).disarm ∧
    ((handoff l s).st b).levels = (s.st b).levels ∧
    ((handoff l s).st b).vectorBase = (s.st b).vectorBase ∧
    ((handoff l s).st b).inService = (s.st b).inService ∧
    ((handoff l s).st b).fault = (s.st b).fault ∧
    ((handoff l s).st b).multiple = (s.st b).multiple := by simp [handoff]

@[simp] theorem passLock_frame (l : LockId) (r : StationId) (s : State) :
    (passLock l r s).supervisor = s.supervisor ∧
    (passLock l r s).channels = s.channels ∧
    (passLock l r s).freeCells = s.freeCells ∧
    (passLock l r s).freeDescs = s.freeDescs ∧
    (passLock l r s).messages = s.messages ∧
    (passLock l r s).cellStore = s.cellStore ∧
    (passLock l r s).roomQueue = s.roomQueue ∧
    (passLock l r s).engine = s.engine ∧
    (passLock l r s).gap = s.gap ∧
    (passLock l r s).rrPointer = s.rrPointer ∧
    (passLock l r s).burst = s.burst ∧
    (passLock l r s).responseLimit = s.responseLimit ∧
    (passLock l r s).retryBudget = s.retryBudget ∧
    (passLock l r s).burstLimit = s.burstLimit ∧
    (passLock l r s).tickDiv = s.tickDiv ∧
    (passLock l r s).tickCount = s.tickCount ∧
    (passLock l r s).answer = s.answer ∧
    (passLock l r s).pending = s.pending := by
  unfold passLock; split <;> simp

@[simp] theorem passLock_reads (l : LockId) (r : StationId) (s : State) :
    (∀ c', (passLock l r s).chan c' = s.chan c') ∧ (∀ d', (passLock l r s).msg d' = s.msg d') := by
  simp [State.chan, State.msg]

@[simp] theorem passLock_stations (l : LockId) (r : StationId) (s : State) (b : StationId) :
    ((passLock l r s).st b).state = (s.st b).state ∧
    ((passLock l r s).st b).seqCounter = (s.st b).seqCounter ∧
    ((passLock l r s).st b).roomWaitLimit = (s.st b).roomWaitLimit ∧
    ((passLock l r s).st b).lockWaitLimit = (s.st b).lockWaitLimit ∧
    ((passLock l r s).st b).result = (s.st b).result ∧
    ((passLock l r s).st b).supOperand = (s.st b).supOperand ∧
    ((passLock l r s).st b).staging = (s.st b).staging ∧
    ((passLock l r s).st b).sendTag = (s.st b).sendTag ∧
    ((passLock l r s).st b).send = (s.st b).send ∧
    ((passLock l r s).st b).sendResult = (s.st b).sendResult ∧
    ((passLock l r s).st b).queues = (s.st b).queues ∧
    ((passLock l r s).st b).limits = (s.st b).limits ∧
    ((passLock l r s).st b).readSlot = (s.st b).readSlot ∧
    ((passLock l r s).st b).confirms = (s.st b).confirms ∧
    ((passLock l r s).st b).confirmOverflow = (s.st b).confirmOverflow ∧
    ((passLock l r s).st b).ring = (s.st b).ring ∧
    ((passLock l r s).st b).enables = (s.st b).enables ∧
    ((passLock l r s).st b).disarm = (s.st b).disarm ∧
    ((passLock l r s).st b).levels = (s.st b).levels ∧
    ((passLock l r s).st b).vectorBase = (s.st b).vectorBase ∧
    ((passLock l r s).st b).inService = (s.st b).inService ∧
    ((passLock l r s).st b).fault = (s.st b).fault ∧
    ((passLock l r s).st b).multiple = (s.st b).multiple := by
  unfold passLock; split <;> simp

@[simp] theorem passCarried_frame (carried : Option LockId) (r : StationId) (s : State) :
    (passCarried carried r s).supervisor = s.supervisor ∧
    (passCarried carried r s).channels = s.channels ∧
    (passCarried carried r s).freeCells = s.freeCells ∧
    (passCarried carried r s).freeDescs = s.freeDescs ∧
    (passCarried carried r s).messages = s.messages ∧
    (passCarried carried r s).cellStore = s.cellStore ∧
    (passCarried carried r s).roomQueue = s.roomQueue ∧
    (passCarried carried r s).engine = s.engine ∧
    (passCarried carried r s).gap = s.gap ∧
    (passCarried carried r s).rrPointer = s.rrPointer ∧
    (passCarried carried r s).burst = s.burst ∧
    (passCarried carried r s).responseLimit = s.responseLimit ∧
    (passCarried carried r s).retryBudget = s.retryBudget ∧
    (passCarried carried r s).burstLimit = s.burstLimit ∧
    (passCarried carried r s).tickDiv = s.tickDiv ∧
    (passCarried carried r s).tickCount = s.tickCount ∧
    (passCarried carried r s).answer = s.answer ∧
    (passCarried carried r s).pending = s.pending := by
  cases carried <;> simp [passCarried]

@[simp] theorem passCarried_reads (carried : Option LockId) (r : StationId) (s : State) :
    (∀ c', (passCarried carried r s).chan c' = s.chan c') ∧ (∀ d', (passCarried carried r s).msg d' = s.msg d') := by
  simp [State.chan, State.msg]

@[simp] theorem passCarried_stations (carried : Option LockId) (r : StationId) (s : State) (b : StationId) :
    ((passCarried carried r s).st b).state = (s.st b).state ∧
    ((passCarried carried r s).st b).seqCounter = (s.st b).seqCounter ∧
    ((passCarried carried r s).st b).roomWaitLimit = (s.st b).roomWaitLimit ∧
    ((passCarried carried r s).st b).lockWaitLimit = (s.st b).lockWaitLimit ∧
    ((passCarried carried r s).st b).result = (s.st b).result ∧
    ((passCarried carried r s).st b).supOperand = (s.st b).supOperand ∧
    ((passCarried carried r s).st b).staging = (s.st b).staging ∧
    ((passCarried carried r s).st b).sendTag = (s.st b).sendTag ∧
    ((passCarried carried r s).st b).send = (s.st b).send ∧
    ((passCarried carried r s).st b).sendResult = (s.st b).sendResult ∧
    ((passCarried carried r s).st b).queues = (s.st b).queues ∧
    ((passCarried carried r s).st b).limits = (s.st b).limits ∧
    ((passCarried carried r s).st b).readSlot = (s.st b).readSlot ∧
    ((passCarried carried r s).st b).confirms = (s.st b).confirms ∧
    ((passCarried carried r s).st b).confirmOverflow = (s.st b).confirmOverflow ∧
    ((passCarried carried r s).st b).ring = (s.st b).ring ∧
    ((passCarried carried r s).st b).enables = (s.st b).enables ∧
    ((passCarried carried r s).st b).disarm = (s.st b).disarm ∧
    ((passCarried carried r s).st b).levels = (s.st b).levels ∧
    ((passCarried carried r s).st b).vectorBase = (s.st b).vectorBase ∧
    ((passCarried carried r s).st b).inService = (s.st b).inService ∧
    ((passCarried carried r s).st b).fault = (s.st b).fault ∧
    ((passCarried carried r s).st b).multiple = (s.st b).multiple := by
  cases carried <;> simp [passCarried]

@[simp] theorem setLockState_frame (l : Option LockId) (st : LockState) (s : State) :
    (setLockState l st s).stations = s.stations ∧
    (setLockState l st s).supervisor = s.supervisor ∧
    (setLockState l st s).channels = s.channels ∧
    (setLockState l st s).freeCells = s.freeCells ∧
    (setLockState l st s).freeDescs = s.freeDescs ∧
    (setLockState l st s).messages = s.messages ∧
    (setLockState l st s).cellStore = s.cellStore ∧
    (setLockState l st s).roomQueue = s.roomQueue ∧
    (setLockState l st s).engine = s.engine ∧
    (setLockState l st s).gap = s.gap ∧
    (setLockState l st s).rrPointer = s.rrPointer ∧
    (setLockState l st s).burst = s.burst ∧
    (setLockState l st s).responseLimit = s.responseLimit ∧
    (setLockState l st s).retryBudget = s.retryBudget ∧
    (setLockState l st s).burstLimit = s.burstLimit ∧
    (setLockState l st s).tickDiv = s.tickDiv ∧
    (setLockState l st s).tickCount = s.tickCount ∧
    (setLockState l st s).answer = s.answer ∧
    (setLockState l st s).pending = s.pending := by
  cases l <;> simp [setLockState]

@[simp] theorem setLockState_reads (l : Option LockId) (st : LockState) (s : State) :
    (∀ b', (setLockState l st s).st b' = s.st b') ∧ (∀ c', (setLockState l st s).chan c' = s.chan c') ∧ (∀ d', (setLockState l st s).msg d' = s.msg d') := by
  simp [State.st, State.chan, State.msg]

@[simp] theorem setLockState_stations (l : Option LockId) (st : LockState) (s : State) (b : StationId) :
    ((setLockState l st s).st b).state = (s.st b).state ∧
    ((setLockState l st s).st b).seqCounter = (s.st b).seqCounter ∧
    ((setLockState l st s).st b).roomWaitLimit = (s.st b).roomWaitLimit ∧
    ((setLockState l st s).st b).lockWaitLimit = (s.st b).lockWaitLimit ∧
    ((setLockState l st s).st b).result = (s.st b).result ∧
    ((setLockState l st s).st b).supOperand = (s.st b).supOperand ∧
    ((setLockState l st s).st b).staging = (s.st b).staging ∧
    ((setLockState l st s).st b).sendTag = (s.st b).sendTag ∧
    ((setLockState l st s).st b).send = (s.st b).send ∧
    ((setLockState l st s).st b).sendResult = (s.st b).sendResult ∧
    ((setLockState l st s).st b).queues = (s.st b).queues ∧
    ((setLockState l st s).st b).limits = (s.st b).limits ∧
    ((setLockState l st s).st b).readSlot = (s.st b).readSlot ∧
    ((setLockState l st s).st b).confirms = (s.st b).confirms ∧
    ((setLockState l st s).st b).confirmOverflow = (s.st b).confirmOverflow ∧
    ((setLockState l st s).st b).wait = (s.st b).wait ∧
    ((setLockState l st s).st b).lastWait = (s.st b).lastWait ∧
    ((setLockState l st s).st b).ring = (s.st b).ring ∧
    ((setLockState l st s).st b).pendingFlags = (s.st b).pendingFlags ∧
    ((setLockState l st s).st b).enables = (s.st b).enables ∧
    ((setLockState l st s).st b).disarm = (s.st b).disarm ∧
    ((setLockState l st s).st b).levels = (s.st b).levels ∧
    ((setLockState l st s).st b).vectorBase = (s.st b).vectorBase ∧
    ((setLockState l st s).st b).inService = (s.st b).inService ∧
    ((setLockState l st s).st b).fault = (s.st b).fault ∧
    ((setLockState l st s).st b).multiple = (s.st b).multiple := by
  cases l <;> simp [setLockState]

@[simp] theorem leaveWait_frame (a : StationId) (o : WaitOutcome) (s : State) :
    (leaveWait a o s).supervisor = s.supervisor ∧
    (leaveWait a o s).channels = s.channels ∧
    (leaveWait a o s).freeCells = s.freeCells ∧
    (leaveWait a o s).freeDescs = s.freeDescs ∧
    (leaveWait a o s).messages = s.messages ∧
    (leaveWait a o s).cellStore = s.cellStore ∧
    (leaveWait a o s).roomQueue = s.roomQueue ∧
    (leaveWait a o s).engine = s.engine ∧
    (leaveWait a o s).gap = s.gap ∧
    (leaveWait a o s).rrPointer = s.rrPointer ∧
    (leaveWait a o s).burst = s.burst ∧
    (leaveWait a o s).responseLimit = s.responseLimit ∧
    (leaveWait a o s).retryBudget = s.retryBudget ∧
    (leaveWait a o s).burstLimit = s.burstLimit ∧
    (leaveWait a o s).tickDiv = s.tickDiv ∧
    (leaveWait a o s).tickCount = s.tickCount ∧
    (leaveWait a o s).answer = s.answer ∧
    (leaveWait a o s).pending = s.pending := by
  unfold leaveWait; split <;> simp

@[simp] theorem leaveWait_reads (a : StationId) (o : WaitOutcome) (s : State) :
    (∀ c', (leaveWait a o s).chan c' = s.chan c') ∧ (∀ d', (leaveWait a o s).msg d' = s.msg d') := by
  simp [State.chan, State.msg]

@[simp] theorem leaveWait_stations (a : StationId) (o : WaitOutcome) (s : State) (b : StationId) :
    ((leaveWait a o s).st b).state = (s.st b).state ∧
    ((leaveWait a o s).st b).seqCounter = (s.st b).seqCounter ∧
    ((leaveWait a o s).st b).roomWaitLimit = (s.st b).roomWaitLimit ∧
    ((leaveWait a o s).st b).lockWaitLimit = (s.st b).lockWaitLimit ∧
    ((leaveWait a o s).st b).result = (s.st b).result ∧
    ((leaveWait a o s).st b).supOperand = (s.st b).supOperand ∧
    ((leaveWait a o s).st b).staging = (s.st b).staging ∧
    ((leaveWait a o s).st b).sendTag = (s.st b).sendTag ∧
    ((leaveWait a o s).st b).send = (s.st b).send ∧
    ((leaveWait a o s).st b).sendResult = (s.st b).sendResult ∧
    ((leaveWait a o s).st b).queues = (s.st b).queues ∧
    ((leaveWait a o s).st b).limits = (s.st b).limits ∧
    ((leaveWait a o s).st b).readSlot = (s.st b).readSlot ∧
    ((leaveWait a o s).st b).confirms = (s.st b).confirms ∧
    ((leaveWait a o s).st b).confirmOverflow = (s.st b).confirmOverflow ∧
    ((leaveWait a o s).st b).ring = (s.st b).ring ∧
    ((leaveWait a o s).st b).pendingFlags = (s.st b).pendingFlags ∧
    ((leaveWait a o s).st b).enables = (s.st b).enables ∧
    ((leaveWait a o s).st b).disarm = (s.st b).disarm ∧
    ((leaveWait a o s).st b).levels = (s.st b).levels ∧
    ((leaveWait a o s).st b).vectorBase = (s.st b).vectorBase ∧
    ((leaveWait a o s).st b).inService = (s.st b).inService ∧
    ((leaveWait a o s).st b).fault = (s.st b).fault ∧
    ((leaveWait a o s).st b).multiple = (s.st b).multiple := by
  unfold leaveWait; split <;> simp

@[simp] theorem releaseIfHeld_frame (a : StationId) (l : LockId) (s : State) :
    (releaseIfHeld a s l).supervisor = s.supervisor ∧
    (releaseIfHeld a s l).channels = s.channels ∧
    (releaseIfHeld a s l).freeCells = s.freeCells ∧
    (releaseIfHeld a s l).freeDescs = s.freeDescs ∧
    (releaseIfHeld a s l).messages = s.messages ∧
    (releaseIfHeld a s l).cellStore = s.cellStore ∧
    (releaseIfHeld a s l).roomQueue = s.roomQueue ∧
    (releaseIfHeld a s l).engine = s.engine ∧
    (releaseIfHeld a s l).gap = s.gap ∧
    (releaseIfHeld a s l).rrPointer = s.rrPointer ∧
    (releaseIfHeld a s l).burst = s.burst ∧
    (releaseIfHeld a s l).responseLimit = s.responseLimit ∧
    (releaseIfHeld a s l).retryBudget = s.retryBudget ∧
    (releaseIfHeld a s l).burstLimit = s.burstLimit ∧
    (releaseIfHeld a s l).tickDiv = s.tickDiv ∧
    (releaseIfHeld a s l).tickCount = s.tickCount ∧
    (releaseIfHeld a s l).answer = s.answer ∧
    (releaseIfHeld a s l).pending = s.pending := by
  unfold releaseIfHeld; split <;> simp

@[simp] theorem releaseIfHeld_reads (a : StationId) (l : LockId) (s : State) :
    (∀ c', (releaseIfHeld a s l).chan c' = s.chan c') ∧ (∀ d', (releaseIfHeld a s l).msg d' = s.msg d') := by
  simp [State.chan, State.msg]

@[simp] theorem releaseIfHeld_stations (a : StationId) (l : LockId) (s : State) (b : StationId) :
    ((releaseIfHeld a s l).st b).state = (s.st b).state ∧
    ((releaseIfHeld a s l).st b).seqCounter = (s.st b).seqCounter ∧
    ((releaseIfHeld a s l).st b).roomWaitLimit = (s.st b).roomWaitLimit ∧
    ((releaseIfHeld a s l).st b).lockWaitLimit = (s.st b).lockWaitLimit ∧
    ((releaseIfHeld a s l).st b).result = (s.st b).result ∧
    ((releaseIfHeld a s l).st b).supOperand = (s.st b).supOperand ∧
    ((releaseIfHeld a s l).st b).staging = (s.st b).staging ∧
    ((releaseIfHeld a s l).st b).sendTag = (s.st b).sendTag ∧
    ((releaseIfHeld a s l).st b).send = (s.st b).send ∧
    ((releaseIfHeld a s l).st b).sendResult = (s.st b).sendResult ∧
    ((releaseIfHeld a s l).st b).queues = (s.st b).queues ∧
    ((releaseIfHeld a s l).st b).limits = (s.st b).limits ∧
    ((releaseIfHeld a s l).st b).readSlot = (s.st b).readSlot ∧
    ((releaseIfHeld a s l).st b).confirms = (s.st b).confirms ∧
    ((releaseIfHeld a s l).st b).confirmOverflow = (s.st b).confirmOverflow ∧
    ((releaseIfHeld a s l).st b).ring = (s.st b).ring ∧
    ((releaseIfHeld a s l).st b).enables = (s.st b).enables ∧
    ((releaseIfHeld a s l).st b).disarm = (s.st b).disarm ∧
    ((releaseIfHeld a s l).st b).levels = (s.st b).levels ∧
    ((releaseIfHeld a s l).st b).vectorBase = (s.st b).vectorBase ∧
    ((releaseIfHeld a s l).st b).inService = (s.st b).inService ∧
    ((releaseIfHeld a s l).st b).fault = (s.st b).fault ∧
    ((releaseIfHeld a s l).st b).multiple = (s.st b).multiple := by
  unfold releaseIfHeld; split <;> simp

@[simp] theorem releaseHoldings_frame (a : StationId) (s : State) :
    (releaseHoldings a s).supervisor = s.supervisor ∧
    (releaseHoldings a s).channels = s.channels ∧
    (releaseHoldings a s).freeCells = s.freeCells ∧
    (releaseHoldings a s).freeDescs = s.freeDescs ∧
    (releaseHoldings a s).messages = s.messages ∧
    (releaseHoldings a s).cellStore = s.cellStore ∧
    (releaseHoldings a s).roomQueue = s.roomQueue ∧
    (releaseHoldings a s).engine = s.engine ∧
    (releaseHoldings a s).gap = s.gap ∧
    (releaseHoldings a s).rrPointer = s.rrPointer ∧
    (releaseHoldings a s).burst = s.burst ∧
    (releaseHoldings a s).responseLimit = s.responseLimit ∧
    (releaseHoldings a s).retryBudget = s.retryBudget ∧
    (releaseHoldings a s).burstLimit = s.burstLimit ∧
    (releaseHoldings a s).tickDiv = s.tickDiv ∧
    (releaseHoldings a s).tickCount = s.tickCount ∧
    (releaseHoldings a s).answer = s.answer ∧
    (releaseHoldings a s).pending = s.pending := by
  unfold releaseHoldings
  generalize List.finRange 32 = ls
  induction ls generalizing s with
  | nil => simp
  | cons l rest ih =>
    rw [List.foldl_cons]
    simp [ih]

@[simp] theorem releaseHoldings_reads (a : StationId) (s : State) :
    (∀ c', (releaseHoldings a s).chan c' = s.chan c') ∧ (∀ d', (releaseHoldings a s).msg d' = s.msg d') := by
  simp [State.chan, State.msg]

@[simp] theorem releaseHoldings_stations (a : StationId) (s : State) (b : StationId) :
    ((releaseHoldings a s).st b).state = (s.st b).state ∧
    ((releaseHoldings a s).st b).seqCounter = (s.st b).seqCounter ∧
    ((releaseHoldings a s).st b).roomWaitLimit = (s.st b).roomWaitLimit ∧
    ((releaseHoldings a s).st b).lockWaitLimit = (s.st b).lockWaitLimit ∧
    ((releaseHoldings a s).st b).result = (s.st b).result ∧
    ((releaseHoldings a s).st b).supOperand = (s.st b).supOperand ∧
    ((releaseHoldings a s).st b).staging = (s.st b).staging ∧
    ((releaseHoldings a s).st b).sendTag = (s.st b).sendTag ∧
    ((releaseHoldings a s).st b).send = (s.st b).send ∧
    ((releaseHoldings a s).st b).sendResult = (s.st b).sendResult ∧
    ((releaseHoldings a s).st b).queues = (s.st b).queues ∧
    ((releaseHoldings a s).st b).limits = (s.st b).limits ∧
    ((releaseHoldings a s).st b).readSlot = (s.st b).readSlot ∧
    ((releaseHoldings a s).st b).confirms = (s.st b).confirms ∧
    ((releaseHoldings a s).st b).confirmOverflow = (s.st b).confirmOverflow ∧
    ((releaseHoldings a s).st b).ring = (s.st b).ring ∧
    ((releaseHoldings a s).st b).enables = (s.st b).enables ∧
    ((releaseHoldings a s).st b).disarm = (s.st b).disarm ∧
    ((releaseHoldings a s).st b).levels = (s.st b).levels ∧
    ((releaseHoldings a s).st b).vectorBase = (s.st b).vectorBase ∧
    ((releaseHoldings a s).st b).inService = (s.st b).inService ∧
    ((releaseHoldings a s).st b).fault = (s.st b).fault ∧
    ((releaseHoldings a s).st b).multiple = (s.st b).multiple := by
  unfold releaseHoldings
  generalize List.finRange 32 = ls
  induction ls generalizing s with
  | nil => simp
  | cons l rest ih =>
    rw [List.foldl_cons]
    simp [ih]

@[simp] theorem allocate_frame (a : StationId) (p : Post) (s : State) :
    (allocate a p s).supervisor = s.supervisor ∧
    (allocate a p s).channels = s.channels ∧
    (allocate a p s).locks = s.locks ∧
    (allocate a p s).cellStore = s.cellStore ∧
    (allocate a p s).roomQueue = s.roomQueue ∧
    (allocate a p s).engine = s.engine ∧
    (allocate a p s).gap = s.gap ∧
    (allocate a p s).rrPointer = s.rrPointer ∧
    (allocate a p s).burst = s.burst ∧
    (allocate a p s).responseLimit = s.responseLimit ∧
    (allocate a p s).retryBudget = s.retryBudget ∧
    (allocate a p s).burstLimit = s.burstLimit ∧
    (allocate a p s).tickDiv = s.tickDiv ∧
    (allocate a p s).tickCount = s.tickCount ∧
    (allocate a p s).answer = s.answer ∧
    (allocate a p s).pending = s.pending := by
  unfold allocate; split <;> simp

@[simp] theorem allocate_reads (a : StationId) (p : Post) (s : State) :
    (∀ c', (allocate a p s).chan c' = s.chan c') ∧ (∀ l', (allocate a p s).lock l' = s.lock l') := by
  simp [State.chan, State.lock]

@[simp] theorem allocate_stations (a : StationId) (p : Post) (s : State) (b : StationId) :
    ((allocate a p s).st b).state = (s.st b).state ∧
    ((allocate a p s).st b).seqCounter = (s.st b).seqCounter ∧
    ((allocate a p s).st b).roomWaitLimit = (s.st b).roomWaitLimit ∧
    ((allocate a p s).st b).lockWaitLimit = (s.st b).lockWaitLimit ∧
    ((allocate a p s).st b).result = (s.st b).result ∧
    ((allocate a p s).st b).supOperand = (s.st b).supOperand ∧
    ((allocate a p s).st b).staging = (s.st b).staging ∧
    ((allocate a p s).st b).sendTag = (s.st b).sendTag ∧
    ((allocate a p s).st b).sendResult = (s.st b).sendResult ∧
    ((allocate a p s).st b).queues = (s.st b).queues ∧
    ((allocate a p s).st b).limits = (s.st b).limits ∧
    ((allocate a p s).st b).readSlot = (s.st b).readSlot ∧
    ((allocate a p s).st b).confirms = (s.st b).confirms ∧
    ((allocate a p s).st b).confirmOverflow = (s.st b).confirmOverflow ∧
    ((allocate a p s).st b).wait = (s.st b).wait ∧
    ((allocate a p s).st b).lastWait = (s.st b).lastWait ∧
    ((allocate a p s).st b).ring = (s.st b).ring ∧
    ((allocate a p s).st b).pendingFlags = (s.st b).pendingFlags ∧
    ((allocate a p s).st b).enables = (s.st b).enables ∧
    ((allocate a p s).st b).disarm = (s.st b).disarm ∧
    ((allocate a p s).st b).levels = (s.st b).levels ∧
    ((allocate a p s).st b).vectorBase = (s.st b).vectorBase ∧
    ((allocate a p s).st b).inService = (s.st b).inService ∧
    ((allocate a p s).st b).fault = (s.st b).fault ∧
    ((allocate a p s).st b).multiple = (s.st b).multiple := by
  unfold allocate; split
  · simp
  · by_cases h : b = a
    · subst h; simp [State.st]
    · simp [State.st, h]

@[simp] theorem grant_frame (e : RoomEntry) (s : State) :
    (grant e s).supervisor = s.supervisor ∧
    (grant e s).channels = s.channels ∧
    (grant e s).locks = s.locks ∧
    (grant e s).cellStore = s.cellStore ∧
    (grant e s).roomQueue = s.roomQueue ∧
    (grant e s).engine = s.engine ∧
    (grant e s).gap = s.gap ∧
    (grant e s).rrPointer = s.rrPointer ∧
    (grant e s).burst = s.burst ∧
    (grant e s).responseLimit = s.responseLimit ∧
    (grant e s).retryBudget = s.retryBudget ∧
    (grant e s).burstLimit = s.burstLimit ∧
    (grant e s).tickDiv = s.tickDiv ∧
    (grant e s).tickCount = s.tickCount ∧
    (grant e s).answer = s.answer ∧
    (grant e s).pending = s.pending := by
  unfold grant; split <;> simp

@[simp] theorem grant_reads (e : RoomEntry) (s : State) :
    (∀ c', (grant e s).chan c' = s.chan c') ∧ (∀ l', (grant e s).lock l' = s.lock l') := by
  simp [State.chan, State.lock]

@[simp] theorem grant_stations (e : RoomEntry) (s : State) (b : StationId) :
    ((grant e s).st b).state = (s.st b).state ∧
    ((grant e s).st b).seqCounter = (s.st b).seqCounter ∧
    ((grant e s).st b).roomWaitLimit = (s.st b).roomWaitLimit ∧
    ((grant e s).st b).lockWaitLimit = (s.st b).lockWaitLimit ∧
    ((grant e s).st b).result = (s.st b).result ∧
    ((grant e s).st b).supOperand = (s.st b).supOperand ∧
    ((grant e s).st b).staging = (s.st b).staging ∧
    ((grant e s).st b).sendTag = (s.st b).sendTag ∧
    ((grant e s).st b).sendResult = (s.st b).sendResult ∧
    ((grant e s).st b).queues = (s.st b).queues ∧
    ((grant e s).st b).limits = (s.st b).limits ∧
    ((grant e s).st b).readSlot = (s.st b).readSlot ∧
    ((grant e s).st b).confirms = (s.st b).confirms ∧
    ((grant e s).st b).confirmOverflow = (s.st b).confirmOverflow ∧
    ((grant e s).st b).wait = (s.st b).wait ∧
    ((grant e s).st b).lastWait = (s.st b).lastWait ∧
    ((grant e s).st b).ring = (s.st b).ring ∧
    ((grant e s).st b).pendingFlags = (s.st b).pendingFlags ∧
    ((grant e s).st b).enables = (s.st b).enables ∧
    ((grant e s).st b).disarm = (s.st b).disarm ∧
    ((grant e s).st b).levels = (s.st b).levels ∧
    ((grant e s).st b).vectorBase = (s.st b).vectorBase ∧
    ((grant e s).st b).inService = (s.st b).inService ∧
    ((grant e s).st b).fault = (s.st b).fault ∧
    ((grant e s).st b).multiple = (s.st b).multiple := by
  unfold grant; split <;> simp

@[simp] theorem examineAmong_frame (q : List RoomEntry) (s : State) :
    (examineAmong q s).supervisor = s.supervisor ∧
    (examineAmong q s).channels = s.channels ∧
    (examineAmong q s).locks = s.locks ∧
    (examineAmong q s).cellStore = s.cellStore ∧
    (examineAmong q s).engine = s.engine ∧
    (examineAmong q s).gap = s.gap ∧
    (examineAmong q s).rrPointer = s.rrPointer ∧
    (examineAmong q s).burst = s.burst ∧
    (examineAmong q s).responseLimit = s.responseLimit ∧
    (examineAmong q s).retryBudget = s.retryBudget ∧
    (examineAmong q s).burstLimit = s.burstLimit ∧
    (examineAmong q s).tickDiv = s.tickDiv ∧
    (examineAmong q s).tickCount = s.tickCount ∧
    (examineAmong q s).answer = s.answer ∧
    (examineAmong q s).pending = s.pending := by
  induction q generalizing s with
  | nil => simp [examineAmong]
  | cons e rest ih =>
    unfold examineAmong
    split
    · simp [ih]
    · simp

@[simp] theorem examineAmong_reads (q : List RoomEntry) (s : State) :
    (∀ c', (examineAmong q s).chan c' = s.chan c') ∧ (∀ l', (examineAmong q s).lock l' = s.lock l') := by
  simp [State.chan, State.lock]

@[simp] theorem examineAmong_stations (q : List RoomEntry) (s : State) (b : StationId) :
    ((examineAmong q s).st b).state = (s.st b).state ∧
    ((examineAmong q s).st b).seqCounter = (s.st b).seqCounter ∧
    ((examineAmong q s).st b).roomWaitLimit = (s.st b).roomWaitLimit ∧
    ((examineAmong q s).st b).lockWaitLimit = (s.st b).lockWaitLimit ∧
    ((examineAmong q s).st b).result = (s.st b).result ∧
    ((examineAmong q s).st b).supOperand = (s.st b).supOperand ∧
    ((examineAmong q s).st b).staging = (s.st b).staging ∧
    ((examineAmong q s).st b).sendTag = (s.st b).sendTag ∧
    ((examineAmong q s).st b).sendResult = (s.st b).sendResult ∧
    ((examineAmong q s).st b).queues = (s.st b).queues ∧
    ((examineAmong q s).st b).limits = (s.st b).limits ∧
    ((examineAmong q s).st b).readSlot = (s.st b).readSlot ∧
    ((examineAmong q s).st b).confirms = (s.st b).confirms ∧
    ((examineAmong q s).st b).confirmOverflow = (s.st b).confirmOverflow ∧
    ((examineAmong q s).st b).wait = (s.st b).wait ∧
    ((examineAmong q s).st b).lastWait = (s.st b).lastWait ∧
    ((examineAmong q s).st b).ring = (s.st b).ring ∧
    ((examineAmong q s).st b).pendingFlags = (s.st b).pendingFlags ∧
    ((examineAmong q s).st b).enables = (s.st b).enables ∧
    ((examineAmong q s).st b).disarm = (s.st b).disarm ∧
    ((examineAmong q s).st b).levels = (s.st b).levels ∧
    ((examineAmong q s).st b).vectorBase = (s.st b).vectorBase ∧
    ((examineAmong q s).st b).inService = (s.st b).inService ∧
    ((examineAmong q s).st b).fault = (s.st b).fault ∧
    ((examineAmong q s).st b).multiple = (s.st b).multiple := by
  induction q generalizing s with
  | nil => simp [examineAmong]
  | cons e rest ih =>
    unfold examineAmong
    split
    · simp [ih]
    · simp

@[simp] theorem examine_frame  (s : State) :
    (examine s).supervisor = s.supervisor ∧
    (examine s).channels = s.channels ∧
    (examine s).locks = s.locks ∧
    (examine s).cellStore = s.cellStore ∧
    (examine s).engine = s.engine ∧
    (examine s).gap = s.gap ∧
    (examine s).rrPointer = s.rrPointer ∧
    (examine s).burst = s.burst ∧
    (examine s).responseLimit = s.responseLimit ∧
    (examine s).retryBudget = s.retryBudget ∧
    (examine s).burstLimit = s.burstLimit ∧
    (examine s).tickDiv = s.tickDiv ∧
    (examine s).tickCount = s.tickCount ∧
    (examine s).answer = s.answer ∧
    (examine s).pending = s.pending := by simp [examine]

@[simp] theorem examine_reads  (s : State) :
    (∀ c', (examine s).chan c' = s.chan c') ∧ (∀ l', (examine s).lock l' = s.lock l') := by
  simp [State.chan, State.lock]

@[simp] theorem examine_stations  (s : State) (b : StationId) :
    ((examine s).st b).state = (s.st b).state ∧
    ((examine s).st b).seqCounter = (s.st b).seqCounter ∧
    ((examine s).st b).roomWaitLimit = (s.st b).roomWaitLimit ∧
    ((examine s).st b).lockWaitLimit = (s.st b).lockWaitLimit ∧
    ((examine s).st b).result = (s.st b).result ∧
    ((examine s).st b).supOperand = (s.st b).supOperand ∧
    ((examine s).st b).staging = (s.st b).staging ∧
    ((examine s).st b).sendTag = (s.st b).sendTag ∧
    ((examine s).st b).sendResult = (s.st b).sendResult ∧
    ((examine s).st b).queues = (s.st b).queues ∧
    ((examine s).st b).limits = (s.st b).limits ∧
    ((examine s).st b).readSlot = (s.st b).readSlot ∧
    ((examine s).st b).confirms = (s.st b).confirms ∧
    ((examine s).st b).confirmOverflow = (s.st b).confirmOverflow ∧
    ((examine s).st b).wait = (s.st b).wait ∧
    ((examine s).st b).lastWait = (s.st b).lastWait ∧
    ((examine s).st b).ring = (s.st b).ring ∧
    ((examine s).st b).pendingFlags = (s.st b).pendingFlags ∧
    ((examine s).st b).enables = (s.st b).enables ∧
    ((examine s).st b).disarm = (s.st b).disarm ∧
    ((examine s).st b).levels = (s.st b).levels ∧
    ((examine s).st b).vectorBase = (s.st b).vectorBase ∧
    ((examine s).st b).inService = (s.st b).inService ∧
    ((examine s).st b).fault = (s.st b).fault ∧
    ((examine s).st b).multiple = (s.st b).multiple := by simp [examine]

@[simp] theorem releaseCount_frame (c : ChannelId) (s : State) :
    (releaseCount c s).stations = s.stations ∧
    (releaseCount c s).supervisor = s.supervisor ∧
    (releaseCount c s).locks = s.locks ∧
    (releaseCount c s).freeCells = s.freeCells ∧
    (releaseCount c s).freeDescs = s.freeDescs ∧
    (releaseCount c s).messages = s.messages ∧
    (releaseCount c s).cellStore = s.cellStore ∧
    (releaseCount c s).roomQueue = s.roomQueue ∧
    (releaseCount c s).engine = s.engine ∧
    (releaseCount c s).gap = s.gap ∧
    (releaseCount c s).rrPointer = s.rrPointer ∧
    (releaseCount c s).burst = s.burst ∧
    (releaseCount c s).responseLimit = s.responseLimit ∧
    (releaseCount c s).retryBudget = s.retryBudget ∧
    (releaseCount c s).burstLimit = s.burstLimit ∧
    (releaseCount c s).tickDiv = s.tickDiv ∧
    (releaseCount c s).tickCount = s.tickCount ∧
    (releaseCount c s).answer = s.answer ∧
    (releaseCount c s).pending = s.pending := by simp [releaseCount]

@[simp] theorem releaseCount_reads (c : ChannelId) (s : State) :
    (∀ b', (releaseCount c s).st b' = s.st b') ∧ (∀ l', (releaseCount c s).lock l' = s.lock l') ∧ (∀ d', (releaseCount c s).msg d' = s.msg d') := by
  simp [State.st, State.lock, State.msg]

@[simp] theorem releaseCount_stations (c : ChannelId) (s : State) (b : StationId) :
    ((releaseCount c s).st b).state = (s.st b).state ∧
    ((releaseCount c s).st b).seqCounter = (s.st b).seqCounter ∧
    ((releaseCount c s).st b).roomWaitLimit = (s.st b).roomWaitLimit ∧
    ((releaseCount c s).st b).lockWaitLimit = (s.st b).lockWaitLimit ∧
    ((releaseCount c s).st b).result = (s.st b).result ∧
    ((releaseCount c s).st b).supOperand = (s.st b).supOperand ∧
    ((releaseCount c s).st b).staging = (s.st b).staging ∧
    ((releaseCount c s).st b).sendTag = (s.st b).sendTag ∧
    ((releaseCount c s).st b).send = (s.st b).send ∧
    ((releaseCount c s).st b).sendResult = (s.st b).sendResult ∧
    ((releaseCount c s).st b).queues = (s.st b).queues ∧
    ((releaseCount c s).st b).limits = (s.st b).limits ∧
    ((releaseCount c s).st b).readSlot = (s.st b).readSlot ∧
    ((releaseCount c s).st b).confirms = (s.st b).confirms ∧
    ((releaseCount c s).st b).confirmOverflow = (s.st b).confirmOverflow ∧
    ((releaseCount c s).st b).wait = (s.st b).wait ∧
    ((releaseCount c s).st b).lastWait = (s.st b).lastWait ∧
    ((releaseCount c s).st b).ring = (s.st b).ring ∧
    ((releaseCount c s).st b).pendingFlags = (s.st b).pendingFlags ∧
    ((releaseCount c s).st b).enables = (s.st b).enables ∧
    ((releaseCount c s).st b).disarm = (s.st b).disarm ∧
    ((releaseCount c s).st b).levels = (s.st b).levels ∧
    ((releaseCount c s).st b).vectorBase = (s.st b).vectorBase ∧
    ((releaseCount c s).st b).inService = (s.st b).inService ∧
    ((releaseCount c s).st b).fault = (s.st b).fault ∧
    ((releaseCount c s).st b).multiple = (s.st b).multiple := by simp [releaseCount]

@[simp] theorem endPost_frame (a : StationId) (p : Post) (o : SendOutcome) (s : State) :
    (endPost a p o s).supervisor = s.supervisor ∧
    (endPost a p o s).channels = s.channels ∧
    (endPost a p o s).locks = s.locks ∧
    (endPost a p o s).freeCells = s.freeCells ∧
    (endPost a p o s).freeDescs = s.freeDescs ∧
    (endPost a p o s).messages = s.messages ∧
    (endPost a p o s).cellStore = s.cellStore ∧
    (endPost a p o s).roomQueue = s.roomQueue ∧
    (endPost a p o s).engine = s.engine ∧
    (endPost a p o s).gap = s.gap ∧
    (endPost a p o s).rrPointer = s.rrPointer ∧
    (endPost a p o s).burst = s.burst ∧
    (endPost a p o s).responseLimit = s.responseLimit ∧
    (endPost a p o s).retryBudget = s.retryBudget ∧
    (endPost a p o s).burstLimit = s.burstLimit ∧
    (endPost a p o s).tickDiv = s.tickDiv ∧
    (endPost a p o s).tickCount = s.tickCount ∧
    (endPost a p o s).answer = s.answer ∧
    (endPost a p o s).pending = s.pending := by simp [endPost]

@[simp] theorem endPost_reads (a : StationId) (p : Post) (o : SendOutcome) (s : State) :
    (∀ c', (endPost a p o s).chan c' = s.chan c') ∧ (∀ l', (endPost a p o s).lock l' = s.lock l') ∧ (∀ d', (endPost a p o s).msg d' = s.msg d') := by
  simp [State.chan, State.lock, State.msg]

@[simp] theorem endPost_stations (a : StationId) (p : Post) (o : SendOutcome) (s : State) (b : StationId) :
    ((endPost a p o s).st b).state = (s.st b).state ∧
    ((endPost a p o s).st b).seqCounter = (s.st b).seqCounter ∧
    ((endPost a p o s).st b).roomWaitLimit = (s.st b).roomWaitLimit ∧
    ((endPost a p o s).st b).lockWaitLimit = (s.st b).lockWaitLimit ∧
    ((endPost a p o s).st b).result = (s.st b).result ∧
    ((endPost a p o s).st b).supOperand = (s.st b).supOperand ∧
    ((endPost a p o s).st b).staging = (s.st b).staging ∧
    ((endPost a p o s).st b).sendTag = (s.st b).sendTag ∧
    ((endPost a p o s).st b).queues = (s.st b).queues ∧
    ((endPost a p o s).st b).limits = (s.st b).limits ∧
    ((endPost a p o s).st b).readSlot = (s.st b).readSlot ∧
    ((endPost a p o s).st b).confirms = (s.st b).confirms ∧
    ((endPost a p o s).st b).confirmOverflow = (s.st b).confirmOverflow ∧
    ((endPost a p o s).st b).wait = (s.st b).wait ∧
    ((endPost a p o s).st b).lastWait = (s.st b).lastWait ∧
    ((endPost a p o s).st b).ring = (s.st b).ring ∧
    ((endPost a p o s).st b).pendingFlags = (s.st b).pendingFlags ∧
    ((endPost a p o s).st b).enables = (s.st b).enables ∧
    ((endPost a p o s).st b).disarm = (s.st b).disarm ∧
    ((endPost a p o s).st b).levels = (s.st b).levels ∧
    ((endPost a p o s).st b).vectorBase = (s.st b).vectorBase ∧
    ((endPost a p o s).st b).inService = (s.st b).inService ∧
    ((endPost a p o s).st b).fault = (s.st b).fault ∧
    ((endPost a p o s).st b).multiple = (s.st b).multiple := by
  by_cases h : b = a
  · subst h; simp [endPost]
  · simp [endPost, h]

@[simp] theorem endRoomWait_frame (a : StationId) (o : SendOutcome) (sent : Bool) (s : State) :
    (endRoomWait a o sent s).supervisor = s.supervisor ∧
    (endRoomWait a o sent s).freeCells = s.freeCells ∧
    (endRoomWait a o sent s).freeDescs = s.freeDescs ∧
    (endRoomWait a o sent s).messages = s.messages ∧
    (endRoomWait a o sent s).cellStore = s.cellStore ∧
    (endRoomWait a o sent s).roomQueue = s.roomQueue ∧
    (endRoomWait a o sent s).engine = s.engine ∧
    (endRoomWait a o sent s).gap = s.gap ∧
    (endRoomWait a o sent s).rrPointer = s.rrPointer ∧
    (endRoomWait a o sent s).burst = s.burst ∧
    (endRoomWait a o sent s).responseLimit = s.responseLimit ∧
    (endRoomWait a o sent s).retryBudget = s.retryBudget ∧
    (endRoomWait a o sent s).burstLimit = s.burstLimit ∧
    (endRoomWait a o sent s).tickDiv = s.tickDiv ∧
    (endRoomWait a o sent s).tickCount = s.tickCount ∧
    (endRoomWait a o sent s).answer = s.answer ∧
    (endRoomWait a o sent s).pending = s.pending := by
  unfold endRoomWait; split
  · cases sent <;> simp
  · simp

@[simp] theorem endRoomWait_reads (a : StationId) (o : SendOutcome) (sent : Bool) (s : State) :
    (∀ d', (endRoomWait a o sent s).msg d' = s.msg d') := by
  simp [State.msg]

@[simp] theorem endRoomWait_stations (a : StationId) (o : SendOutcome) (sent : Bool) (s : State) (b : StationId) :
    ((endRoomWait a o sent s).st b).state = (s.st b).state ∧
    ((endRoomWait a o sent s).st b).seqCounter = (s.st b).seqCounter ∧
    ((endRoomWait a o sent s).st b).roomWaitLimit = (s.st b).roomWaitLimit ∧
    ((endRoomWait a o sent s).st b).lockWaitLimit = (s.st b).lockWaitLimit ∧
    ((endRoomWait a o sent s).st b).result = (s.st b).result ∧
    ((endRoomWait a o sent s).st b).supOperand = (s.st b).supOperand ∧
    ((endRoomWait a o sent s).st b).staging = (s.st b).staging ∧
    ((endRoomWait a o sent s).st b).sendTag = (s.st b).sendTag ∧
    ((endRoomWait a o sent s).st b).queues = (s.st b).queues ∧
    ((endRoomWait a o sent s).st b).limits = (s.st b).limits ∧
    ((endRoomWait a o sent s).st b).readSlot = (s.st b).readSlot ∧
    ((endRoomWait a o sent s).st b).confirms = (s.st b).confirms ∧
    ((endRoomWait a o sent s).st b).confirmOverflow = (s.st b).confirmOverflow ∧
    ((endRoomWait a o sent s).st b).wait = (s.st b).wait ∧
    ((endRoomWait a o sent s).st b).lastWait = (s.st b).lastWait ∧
    ((endRoomWait a o sent s).st b).ring = (s.st b).ring ∧
    ((endRoomWait a o sent s).st b).enables = (s.st b).enables ∧
    ((endRoomWait a o sent s).st b).disarm = (s.st b).disarm ∧
    ((endRoomWait a o sent s).st b).levels = (s.st b).levels ∧
    ((endRoomWait a o sent s).st b).vectorBase = (s.st b).vectorBase ∧
    ((endRoomWait a o sent s).st b).inService = (s.st b).inService ∧
    ((endRoomWait a o sent s).st b).fault = (s.st b).fault ∧
    ((endRoomWait a o sent s).st b).multiple = (s.st b).multiple := by
  unfold endRoomWait; split
  · cases sent <;> simp
  · simp

@[simp] theorem endRoomWaits_frame (gone : List RoomEntry) (o : SendOutcome) (sent : Bool) (s : State) :
    (endRoomWaits gone o sent s).supervisor = s.supervisor ∧
    (endRoomWaits gone o sent s).freeCells = s.freeCells ∧
    (endRoomWaits gone o sent s).freeDescs = s.freeDescs ∧
    (endRoomWaits gone o sent s).messages = s.messages ∧
    (endRoomWaits gone o sent s).cellStore = s.cellStore ∧
    (endRoomWaits gone o sent s).roomQueue = s.roomQueue ∧
    (endRoomWaits gone o sent s).engine = s.engine ∧
    (endRoomWaits gone o sent s).gap = s.gap ∧
    (endRoomWaits gone o sent s).rrPointer = s.rrPointer ∧
    (endRoomWaits gone o sent s).burst = s.burst ∧
    (endRoomWaits gone o sent s).responseLimit = s.responseLimit ∧
    (endRoomWaits gone o sent s).retryBudget = s.retryBudget ∧
    (endRoomWaits gone o sent s).burstLimit = s.burstLimit ∧
    (endRoomWaits gone o sent s).tickDiv = s.tickDiv ∧
    (endRoomWaits gone o sent s).tickCount = s.tickCount ∧
    (endRoomWaits gone o sent s).answer = s.answer ∧
    (endRoomWaits gone o sent s).pending = s.pending := by
  induction gone generalizing s with
  | nil => simp [endRoomWaits]
  | cons e rest ih =>
    unfold endRoomWaits at ih ⊢
    rw [List.foldl_cons]
    simp [ih]

@[simp] theorem endRoomWaits_reads (gone : List RoomEntry) (o : SendOutcome) (sent : Bool) (s : State) :
    (∀ d', (endRoomWaits gone o sent s).msg d' = s.msg d') := by
  simp [State.msg]

@[simp] theorem endRoomWaits_stations (gone : List RoomEntry) (o : SendOutcome) (sent : Bool) (s : State) (b : StationId) :
    ((endRoomWaits gone o sent s).st b).state = (s.st b).state ∧
    ((endRoomWaits gone o sent s).st b).seqCounter = (s.st b).seqCounter ∧
    ((endRoomWaits gone o sent s).st b).roomWaitLimit = (s.st b).roomWaitLimit ∧
    ((endRoomWaits gone o sent s).st b).lockWaitLimit = (s.st b).lockWaitLimit ∧
    ((endRoomWaits gone o sent s).st b).result = (s.st b).result ∧
    ((endRoomWaits gone o sent s).st b).supOperand = (s.st b).supOperand ∧
    ((endRoomWaits gone o sent s).st b).staging = (s.st b).staging ∧
    ((endRoomWaits gone o sent s).st b).sendTag = (s.st b).sendTag ∧
    ((endRoomWaits gone o sent s).st b).queues = (s.st b).queues ∧
    ((endRoomWaits gone o sent s).st b).limits = (s.st b).limits ∧
    ((endRoomWaits gone o sent s).st b).readSlot = (s.st b).readSlot ∧
    ((endRoomWaits gone o sent s).st b).confirms = (s.st b).confirms ∧
    ((endRoomWaits gone o sent s).st b).confirmOverflow = (s.st b).confirmOverflow ∧
    ((endRoomWaits gone o sent s).st b).wait = (s.st b).wait ∧
    ((endRoomWaits gone o sent s).st b).lastWait = (s.st b).lastWait ∧
    ((endRoomWaits gone o sent s).st b).ring = (s.st b).ring ∧
    ((endRoomWaits gone o sent s).st b).enables = (s.st b).enables ∧
    ((endRoomWaits gone o sent s).st b).disarm = (s.st b).disarm ∧
    ((endRoomWaits gone o sent s).st b).levels = (s.st b).levels ∧
    ((endRoomWaits gone o sent s).st b).vectorBase = (s.st b).vectorBase ∧
    ((endRoomWaits gone o sent s).st b).inService = (s.st b).inService ∧
    ((endRoomWaits gone o sent s).st b).fault = (s.st b).fault ∧
    ((endRoomWaits gone o sent s).st b).multiple = (s.st b).multiple := by
  induction gone generalizing s with
  | nil => simp [endRoomWaits]
  | cons e rest ih =>
    unfold endRoomWaits at ih ⊢
    rw [List.foldl_cons]
    simp [ih]

@[simp] theorem removeWaiting_frame (p : RoomEntry → Bool) (o : SendOutcome) (sent : Bool) (s : State) :
    (removeWaiting p o sent s).supervisor = s.supervisor ∧
    (removeWaiting p o sent s).cellStore = s.cellStore ∧
    (removeWaiting p o sent s).engine = s.engine ∧
    (removeWaiting p o sent s).gap = s.gap ∧
    (removeWaiting p o sent s).rrPointer = s.rrPointer ∧
    (removeWaiting p o sent s).burst = s.burst ∧
    (removeWaiting p o sent s).responseLimit = s.responseLimit ∧
    (removeWaiting p o sent s).retryBudget = s.retryBudget ∧
    (removeWaiting p o sent s).burstLimit = s.burstLimit ∧
    (removeWaiting p o sent s).tickDiv = s.tickDiv ∧
    (removeWaiting p o sent s).tickCount = s.tickCount ∧
    (removeWaiting p o sent s).answer = s.answer ∧
    (removeWaiting p o sent s).pending = s.pending := by
  unfold removeWaiting; dsimp only; split <;> simp

@[simp] theorem removeWaiting_stations (p : RoomEntry → Bool) (o : SendOutcome) (sent : Bool) (s : State) (b : StationId) :
    ((removeWaiting p o sent s).st b).state = (s.st b).state ∧
    ((removeWaiting p o sent s).st b).seqCounter = (s.st b).seqCounter ∧
    ((removeWaiting p o sent s).st b).roomWaitLimit = (s.st b).roomWaitLimit ∧
    ((removeWaiting p o sent s).st b).lockWaitLimit = (s.st b).lockWaitLimit ∧
    ((removeWaiting p o sent s).st b).result = (s.st b).result ∧
    ((removeWaiting p o sent s).st b).supOperand = (s.st b).supOperand ∧
    ((removeWaiting p o sent s).st b).staging = (s.st b).staging ∧
    ((removeWaiting p o sent s).st b).sendTag = (s.st b).sendTag ∧
    ((removeWaiting p o sent s).st b).queues = (s.st b).queues ∧
    ((removeWaiting p o sent s).st b).limits = (s.st b).limits ∧
    ((removeWaiting p o sent s).st b).readSlot = (s.st b).readSlot ∧
    ((removeWaiting p o sent s).st b).confirms = (s.st b).confirms ∧
    ((removeWaiting p o sent s).st b).confirmOverflow = (s.st b).confirmOverflow ∧
    ((removeWaiting p o sent s).st b).wait = (s.st b).wait ∧
    ((removeWaiting p o sent s).st b).lastWait = (s.st b).lastWait ∧
    ((removeWaiting p o sent s).st b).ring = (s.st b).ring ∧
    ((removeWaiting p o sent s).st b).enables = (s.st b).enables ∧
    ((removeWaiting p o sent s).st b).disarm = (s.st b).disarm ∧
    ((removeWaiting p o sent s).st b).levels = (s.st b).levels ∧
    ((removeWaiting p o sent s).st b).vectorBase = (s.st b).vectorBase ∧
    ((removeWaiting p o sent s).st b).inService = (s.st b).inService ∧
    ((removeWaiting p o sent s).st b).fault = (s.st b).fault ∧
    ((removeWaiting p o sent s).st b).multiple = (s.st b).multiple := by
  unfold removeWaiting; dsimp only; split <;> simp

@[simp] theorem offerConfirmation_frame (a : StationId) (e : Confirmation) (s : State) :
    (offerConfirmation a e s).supervisor = s.supervisor ∧
    (offerConfirmation a e s).channels = s.channels ∧
    (offerConfirmation a e s).locks = s.locks ∧
    (offerConfirmation a e s).freeCells = s.freeCells ∧
    (offerConfirmation a e s).freeDescs = s.freeDescs ∧
    (offerConfirmation a e s).messages = s.messages ∧
    (offerConfirmation a e s).cellStore = s.cellStore ∧
    (offerConfirmation a e s).roomQueue = s.roomQueue ∧
    (offerConfirmation a e s).engine = s.engine ∧
    (offerConfirmation a e s).gap = s.gap ∧
    (offerConfirmation a e s).rrPointer = s.rrPointer ∧
    (offerConfirmation a e s).burst = s.burst ∧
    (offerConfirmation a e s).responseLimit = s.responseLimit ∧
    (offerConfirmation a e s).retryBudget = s.retryBudget ∧
    (offerConfirmation a e s).burstLimit = s.burstLimit ∧
    (offerConfirmation a e s).tickDiv = s.tickDiv ∧
    (offerConfirmation a e s).tickCount = s.tickCount ∧
    (offerConfirmation a e s).answer = s.answer ∧
    (offerConfirmation a e s).pending = s.pending := by
  unfold offerConfirmation; split <;> simp

@[simp] theorem offerConfirmation_reads (a : StationId) (e : Confirmation) (s : State) :
    (∀ c', (offerConfirmation a e s).chan c' = s.chan c') ∧ (∀ l', (offerConfirmation a e s).lock l' = s.lock l') ∧ (∀ d', (offerConfirmation a e s).msg d' = s.msg d') := by
  simp [State.chan, State.lock, State.msg]

@[simp] theorem offerConfirmation_stations (a : StationId) (e : Confirmation) (s : State) (b : StationId) :
    ((offerConfirmation a e s).st b).state = (s.st b).state ∧
    ((offerConfirmation a e s).st b).seqCounter = (s.st b).seqCounter ∧
    ((offerConfirmation a e s).st b).roomWaitLimit = (s.st b).roomWaitLimit ∧
    ((offerConfirmation a e s).st b).lockWaitLimit = (s.st b).lockWaitLimit ∧
    ((offerConfirmation a e s).st b).result = (s.st b).result ∧
    ((offerConfirmation a e s).st b).supOperand = (s.st b).supOperand ∧
    ((offerConfirmation a e s).st b).staging = (s.st b).staging ∧
    ((offerConfirmation a e s).st b).sendTag = (s.st b).sendTag ∧
    ((offerConfirmation a e s).st b).send = (s.st b).send ∧
    ((offerConfirmation a e s).st b).sendResult = (s.st b).sendResult ∧
    ((offerConfirmation a e s).st b).queues = (s.st b).queues ∧
    ((offerConfirmation a e s).st b).limits = (s.st b).limits ∧
    ((offerConfirmation a e s).st b).readSlot = (s.st b).readSlot ∧
    ((offerConfirmation a e s).st b).wait = (s.st b).wait ∧
    ((offerConfirmation a e s).st b).lastWait = (s.st b).lastWait ∧
    ((offerConfirmation a e s).st b).ring = (s.st b).ring ∧
    ((offerConfirmation a e s).st b).enables = (s.st b).enables ∧
    ((offerConfirmation a e s).st b).disarm = (s.st b).disarm ∧
    ((offerConfirmation a e s).st b).levels = (s.st b).levels ∧
    ((offerConfirmation a e s).st b).vectorBase = (s.st b).vectorBase ∧
    ((offerConfirmation a e s).st b).inService = (s.st b).inService := by
  unfold offerConfirmation; split
  · by_cases h : b = a
    · subst h; simp
    · simp [h]
  · by_cases h : b = a
    · subst h; simp
    · simp [h]

@[simp] theorem disposeLock_frame (o : EndOutcome) (m : Message) (s : State) :
    (disposeLock o m s).supervisor = s.supervisor ∧
    (disposeLock o m s).channels = s.channels ∧
    (disposeLock o m s).freeCells = s.freeCells ∧
    (disposeLock o m s).freeDescs = s.freeDescs ∧
    (disposeLock o m s).messages = s.messages ∧
    (disposeLock o m s).cellStore = s.cellStore ∧
    (disposeLock o m s).roomQueue = s.roomQueue ∧
    (disposeLock o m s).engine = s.engine ∧
    (disposeLock o m s).gap = s.gap ∧
    (disposeLock o m s).rrPointer = s.rrPointer ∧
    (disposeLock o m s).burst = s.burst ∧
    (disposeLock o m s).responseLimit = s.responseLimit ∧
    (disposeLock o m s).retryBudget = s.retryBudget ∧
    (disposeLock o m s).burstLimit = s.burstLimit ∧
    (disposeLock o m s).tickDiv = s.tickDiv ∧
    (disposeLock o m s).tickCount = s.tickCount ∧
    (disposeLock o m s).answer = s.answer ∧
    (disposeLock o m s).pending = s.pending := by
  unfold disposeLock; split <;> simp

@[simp] theorem disposeLock_reads (o : EndOutcome) (m : Message) (s : State) :
    (∀ c', (disposeLock o m s).chan c' = s.chan c') ∧ (∀ d', (disposeLock o m s).msg d' = s.msg d') := by
  simp [State.chan, State.msg]

@[simp] theorem disposeLock_stations (o : EndOutcome) (m : Message) (s : State) (b : StationId) :
    ((disposeLock o m s).st b).state = (s.st b).state ∧
    ((disposeLock o m s).st b).seqCounter = (s.st b).seqCounter ∧
    ((disposeLock o m s).st b).roomWaitLimit = (s.st b).roomWaitLimit ∧
    ((disposeLock o m s).st b).lockWaitLimit = (s.st b).lockWaitLimit ∧
    ((disposeLock o m s).st b).result = (s.st b).result ∧
    ((disposeLock o m s).st b).supOperand = (s.st b).supOperand ∧
    ((disposeLock o m s).st b).staging = (s.st b).staging ∧
    ((disposeLock o m s).st b).sendTag = (s.st b).sendTag ∧
    ((disposeLock o m s).st b).send = (s.st b).send ∧
    ((disposeLock o m s).st b).sendResult = (s.st b).sendResult ∧
    ((disposeLock o m s).st b).queues = (s.st b).queues ∧
    ((disposeLock o m s).st b).limits = (s.st b).limits ∧
    ((disposeLock o m s).st b).readSlot = (s.st b).readSlot ∧
    ((disposeLock o m s).st b).confirms = (s.st b).confirms ∧
    ((disposeLock o m s).st b).confirmOverflow = (s.st b).confirmOverflow ∧
    ((disposeLock o m s).st b).ring = (s.st b).ring ∧
    ((disposeLock o m s).st b).enables = (s.st b).enables ∧
    ((disposeLock o m s).st b).disarm = (s.st b).disarm ∧
    ((disposeLock o m s).st b).levels = (s.st b).levels ∧
    ((disposeLock o m s).st b).vectorBase = (s.st b).vectorBase ∧
    ((disposeLock o m s).st b).inService = (s.st b).inService ∧
    ((disposeLock o m s).st b).fault = (s.st b).fault ∧
    ((disposeLock o m s).st b).multiple = (s.st b).multiple := by
  unfold disposeLock; split <;> simp

@[simp] theorem confirmEnd_frame (o : EndOutcome) (m : Message) (s : State) :
    (confirmEnd o m s).supervisor = s.supervisor ∧
    (confirmEnd o m s).channels = s.channels ∧
    (confirmEnd o m s).locks = s.locks ∧
    (confirmEnd o m s).freeCells = s.freeCells ∧
    (confirmEnd o m s).freeDescs = s.freeDescs ∧
    (confirmEnd o m s).messages = s.messages ∧
    (confirmEnd o m s).cellStore = s.cellStore ∧
    (confirmEnd o m s).roomQueue = s.roomQueue ∧
    (confirmEnd o m s).engine = s.engine ∧
    (confirmEnd o m s).gap = s.gap ∧
    (confirmEnd o m s).rrPointer = s.rrPointer ∧
    (confirmEnd o m s).burst = s.burst ∧
    (confirmEnd o m s).responseLimit = s.responseLimit ∧
    (confirmEnd o m s).retryBudget = s.retryBudget ∧
    (confirmEnd o m s).burstLimit = s.burstLimit ∧
    (confirmEnd o m s).tickDiv = s.tickDiv ∧
    (confirmEnd o m s).tickCount = s.tickCount ∧
    (confirmEnd o m s).answer = s.answer ∧
    (confirmEnd o m s).pending = s.pending := by
  unfold confirmEnd; split <;> simp

@[simp] theorem confirmEnd_reads (o : EndOutcome) (m : Message) (s : State) :
    (∀ c', (confirmEnd o m s).chan c' = s.chan c') ∧ (∀ l', (confirmEnd o m s).lock l' = s.lock l') ∧ (∀ d', (confirmEnd o m s).msg d' = s.msg d') := by
  simp [State.chan, State.lock, State.msg]

@[simp] theorem confirmEnd_stations (o : EndOutcome) (m : Message) (s : State) (b : StationId) :
    ((confirmEnd o m s).st b).state = (s.st b).state ∧
    ((confirmEnd o m s).st b).seqCounter = (s.st b).seqCounter ∧
    ((confirmEnd o m s).st b).roomWaitLimit = (s.st b).roomWaitLimit ∧
    ((confirmEnd o m s).st b).lockWaitLimit = (s.st b).lockWaitLimit ∧
    ((confirmEnd o m s).st b).result = (s.st b).result ∧
    ((confirmEnd o m s).st b).supOperand = (s.st b).supOperand ∧
    ((confirmEnd o m s).st b).staging = (s.st b).staging ∧
    ((confirmEnd o m s).st b).sendTag = (s.st b).sendTag ∧
    ((confirmEnd o m s).st b).send = (s.st b).send ∧
    ((confirmEnd o m s).st b).sendResult = (s.st b).sendResult ∧
    ((confirmEnd o m s).st b).queues = (s.st b).queues ∧
    ((confirmEnd o m s).st b).limits = (s.st b).limits ∧
    ((confirmEnd o m s).st b).readSlot = (s.st b).readSlot ∧
    ((confirmEnd o m s).st b).wait = (s.st b).wait ∧
    ((confirmEnd o m s).st b).lastWait = (s.st b).lastWait ∧
    ((confirmEnd o m s).st b).ring = (s.st b).ring ∧
    ((confirmEnd o m s).st b).enables = (s.st b).enables ∧
    ((confirmEnd o m s).st b).disarm = (s.st b).disarm ∧
    ((confirmEnd o m s).st b).levels = (s.st b).levels ∧
    ((confirmEnd o m s).st b).vectorBase = (s.st b).vectorBase ∧
    ((confirmEnd o m s).st b).inService = (s.st b).inService := by
  unfold confirmEnd; split <;> simp

@[simp] theorem freeMessage_frame (d : DescId) (m : Message) (s : State) :
    (freeMessage d m s).supervisor = s.supervisor ∧
    (freeMessage d m s).channels = s.channels ∧
    (freeMessage d m s).locks = s.locks ∧
    (freeMessage d m s).cellStore = s.cellStore ∧
    (freeMessage d m s).engine = s.engine ∧
    (freeMessage d m s).gap = s.gap ∧
    (freeMessage d m s).rrPointer = s.rrPointer ∧
    (freeMessage d m s).burst = s.burst ∧
    (freeMessage d m s).responseLimit = s.responseLimit ∧
    (freeMessage d m s).retryBudget = s.retryBudget ∧
    (freeMessage d m s).burstLimit = s.burstLimit ∧
    (freeMessage d m s).tickDiv = s.tickDiv ∧
    (freeMessage d m s).tickCount = s.tickCount ∧
    (freeMessage d m s).answer = s.answer ∧
    (freeMessage d m s).pending = s.pending := by simp [freeMessage]

@[simp] theorem freeMessage_reads (d : DescId) (m : Message) (s : State) :
    (∀ c', (freeMessage d m s).chan c' = s.chan c') ∧ (∀ l', (freeMessage d m s).lock l' = s.lock l') := by
  simp [State.chan, State.lock]

@[simp] theorem freeMessage_stations (d : DescId) (m : Message) (s : State) (b : StationId) :
    ((freeMessage d m s).st b).state = (s.st b).state ∧
    ((freeMessage d m s).st b).seqCounter = (s.st b).seqCounter ∧
    ((freeMessage d m s).st b).roomWaitLimit = (s.st b).roomWaitLimit ∧
    ((freeMessage d m s).st b).lockWaitLimit = (s.st b).lockWaitLimit ∧
    ((freeMessage d m s).st b).result = (s.st b).result ∧
    ((freeMessage d m s).st b).supOperand = (s.st b).supOperand ∧
    ((freeMessage d m s).st b).staging = (s.st b).staging ∧
    ((freeMessage d m s).st b).sendTag = (s.st b).sendTag ∧
    ((freeMessage d m s).st b).sendResult = (s.st b).sendResult ∧
    ((freeMessage d m s).st b).queues = (s.st b).queues ∧
    ((freeMessage d m s).st b).limits = (s.st b).limits ∧
    ((freeMessage d m s).st b).readSlot = (s.st b).readSlot ∧
    ((freeMessage d m s).st b).confirms = (s.st b).confirms ∧
    ((freeMessage d m s).st b).confirmOverflow = (s.st b).confirmOverflow ∧
    ((freeMessage d m s).st b).wait = (s.st b).wait ∧
    ((freeMessage d m s).st b).lastWait = (s.st b).lastWait ∧
    ((freeMessage d m s).st b).ring = (s.st b).ring ∧
    ((freeMessage d m s).st b).pendingFlags = (s.st b).pendingFlags ∧
    ((freeMessage d m s).st b).enables = (s.st b).enables ∧
    ((freeMessage d m s).st b).disarm = (s.st b).disarm ∧
    ((freeMessage d m s).st b).levels = (s.st b).levels ∧
    ((freeMessage d m s).st b).vectorBase = (s.st b).vectorBase ∧
    ((freeMessage d m s).st b).inService = (s.st b).inService ∧
    ((freeMessage d m s).st b).fault = (s.st b).fault ∧
    ((freeMessage d m s).st b).multiple = (s.st b).multiple := by simp [freeMessage]

@[simp] theorem endMessage_frame (o : EndOutcome) (d : DescId) (s : State) :
    (endMessage o d s).supervisor = s.supervisor ∧
    (endMessage o d s).cellStore = s.cellStore ∧
    (endMessage o d s).engine = s.engine ∧
    (endMessage o d s).gap = s.gap ∧
    (endMessage o d s).rrPointer = s.rrPointer ∧
    (endMessage o d s).burst = s.burst ∧
    (endMessage o d s).responseLimit = s.responseLimit ∧
    (endMessage o d s).retryBudget = s.retryBudget ∧
    (endMessage o d s).burstLimit = s.burstLimit ∧
    (endMessage o d s).tickDiv = s.tickDiv ∧
    (endMessage o d s).tickCount = s.tickCount ∧
    (endMessage o d s).answer = s.answer ∧
    (endMessage o d s).pending = s.pending := by
  unfold endMessage; split <;> simp

@[simp] theorem endMessage_stations (o : EndOutcome) (d : DescId) (s : State) (b : StationId) :
    ((endMessage o d s).st b).state = (s.st b).state ∧
    ((endMessage o d s).st b).seqCounter = (s.st b).seqCounter ∧
    ((endMessage o d s).st b).roomWaitLimit = (s.st b).roomWaitLimit ∧
    ((endMessage o d s).st b).lockWaitLimit = (s.st b).lockWaitLimit ∧
    ((endMessage o d s).st b).result = (s.st b).result ∧
    ((endMessage o d s).st b).supOperand = (s.st b).supOperand ∧
    ((endMessage o d s).st b).staging = (s.st b).staging ∧
    ((endMessage o d s).st b).sendTag = (s.st b).sendTag ∧
    ((endMessage o d s).st b).sendResult = (s.st b).sendResult ∧
    ((endMessage o d s).st b).queues = (s.st b).queues ∧
    ((endMessage o d s).st b).limits = (s.st b).limits ∧
    ((endMessage o d s).st b).readSlot = (s.st b).readSlot ∧
    ((endMessage o d s).st b).ring = (s.st b).ring ∧
    ((endMessage o d s).st b).enables = (s.st b).enables ∧
    ((endMessage o d s).st b).disarm = (s.st b).disarm ∧
    ((endMessage o d s).st b).levels = (s.st b).levels ∧
    ((endMessage o d s).st b).vectorBase = (s.st b).vectorBase ∧
    ((endMessage o d s).st b).inService = (s.st b).inService := by
  unfold endMessage; split <;> simp

@[simp] theorem endFailedEnqueue_frame (d : DescId) (s : State) :
    (endFailedEnqueue d s).supervisor = s.supervisor ∧
    (endFailedEnqueue d s).cellStore = s.cellStore ∧
    (endFailedEnqueue d s).engine = s.engine ∧
    (endFailedEnqueue d s).gap = s.gap ∧
    (endFailedEnqueue d s).rrPointer = s.rrPointer ∧
    (endFailedEnqueue d s).burst = s.burst ∧
    (endFailedEnqueue d s).responseLimit = s.responseLimit ∧
    (endFailedEnqueue d s).retryBudget = s.retryBudget ∧
    (endFailedEnqueue d s).burstLimit = s.burstLimit ∧
    (endFailedEnqueue d s).tickDiv = s.tickDiv ∧
    (endFailedEnqueue d s).tickCount = s.tickCount ∧
    (endFailedEnqueue d s).answer = s.answer ∧
    (endFailedEnqueue d s).pending = s.pending := by
  unfold endFailedEnqueue; split <;> simp

@[simp] theorem endFailedEnqueue_stations (d : DescId) (s : State) (b : StationId) :
    ((endFailedEnqueue d s).st b).state = (s.st b).state ∧
    ((endFailedEnqueue d s).st b).seqCounter = (s.st b).seqCounter ∧
    ((endFailedEnqueue d s).st b).roomWaitLimit = (s.st b).roomWaitLimit ∧
    ((endFailedEnqueue d s).st b).lockWaitLimit = (s.st b).lockWaitLimit ∧
    ((endFailedEnqueue d s).st b).result = (s.st b).result ∧
    ((endFailedEnqueue d s).st b).supOperand = (s.st b).supOperand ∧
    ((endFailedEnqueue d s).st b).staging = (s.st b).staging ∧
    ((endFailedEnqueue d s).st b).sendTag = (s.st b).sendTag ∧
    ((endFailedEnqueue d s).st b).sendResult = (s.st b).sendResult ∧
    ((endFailedEnqueue d s).st b).queues = (s.st b).queues ∧
    ((endFailedEnqueue d s).st b).limits = (s.st b).limits ∧
    ((endFailedEnqueue d s).st b).readSlot = (s.st b).readSlot ∧
    ((endFailedEnqueue d s).st b).confirms = (s.st b).confirms ∧
    ((endFailedEnqueue d s).st b).confirmOverflow = (s.st b).confirmOverflow ∧
    ((endFailedEnqueue d s).st b).wait = (s.st b).wait ∧
    ((endFailedEnqueue d s).st b).lastWait = (s.st b).lastWait ∧
    ((endFailedEnqueue d s).st b).ring = (s.st b).ring ∧
    ((endFailedEnqueue d s).st b).pendingFlags = (s.st b).pendingFlags ∧
    ((endFailedEnqueue d s).st b).enables = (s.st b).enables ∧
    ((endFailedEnqueue d s).st b).disarm = (s.st b).disarm ∧
    ((endFailedEnqueue d s).st b).levels = (s.st b).levels ∧
    ((endFailedEnqueue d s).st b).vectorBase = (s.st b).vectorBase ∧
    ((endFailedEnqueue d s).st b).inService = (s.st b).inService ∧
    ((endFailedEnqueue d s).st b).fault = (s.st b).fault ∧
    ((endFailedEnqueue d s).st b).multiple = (s.st b).multiple := by
  unfold endFailedEnqueue; split <;> simp

@[simp] theorem setMessageState_frame (d : DescId) (st : MessageState) (s : State) :
    (setMessageState d st s).stations = s.stations ∧
    (setMessageState d st s).supervisor = s.supervisor ∧
    (setMessageState d st s).channels = s.channels ∧
    (setMessageState d st s).locks = s.locks ∧
    (setMessageState d st s).freeCells = s.freeCells ∧
    (setMessageState d st s).freeDescs = s.freeDescs ∧
    (setMessageState d st s).cellStore = s.cellStore ∧
    (setMessageState d st s).roomQueue = s.roomQueue ∧
    (setMessageState d st s).engine = s.engine ∧
    (setMessageState d st s).gap = s.gap ∧
    (setMessageState d st s).rrPointer = s.rrPointer ∧
    (setMessageState d st s).burst = s.burst ∧
    (setMessageState d st s).responseLimit = s.responseLimit ∧
    (setMessageState d st s).retryBudget = s.retryBudget ∧
    (setMessageState d st s).burstLimit = s.burstLimit ∧
    (setMessageState d st s).tickDiv = s.tickDiv ∧
    (setMessageState d st s).tickCount = s.tickCount ∧
    (setMessageState d st s).answer = s.answer ∧
    (setMessageState d st s).pending = s.pending := by
  unfold setMessageState; split <;> simp

@[simp] theorem setMessageState_reads (d : DescId) (st : MessageState) (s : State) :
    (∀ b', (setMessageState d st s).st b' = s.st b') ∧ (∀ c', (setMessageState d st s).chan c' = s.chan c') ∧ (∀ l', (setMessageState d st s).lock l' = s.lock l') := by
  simp [State.st, State.chan, State.lock]

@[simp] theorem setMessageState_stations (d : DescId) (st : MessageState) (s : State) (b : StationId) :
    ((setMessageState d st s).st b).state = (s.st b).state ∧
    ((setMessageState d st s).st b).seqCounter = (s.st b).seqCounter ∧
    ((setMessageState d st s).st b).roomWaitLimit = (s.st b).roomWaitLimit ∧
    ((setMessageState d st s).st b).lockWaitLimit = (s.st b).lockWaitLimit ∧
    ((setMessageState d st s).st b).result = (s.st b).result ∧
    ((setMessageState d st s).st b).supOperand = (s.st b).supOperand ∧
    ((setMessageState d st s).st b).staging = (s.st b).staging ∧
    ((setMessageState d st s).st b).sendTag = (s.st b).sendTag ∧
    ((setMessageState d st s).st b).send = (s.st b).send ∧
    ((setMessageState d st s).st b).sendResult = (s.st b).sendResult ∧
    ((setMessageState d st s).st b).queues = (s.st b).queues ∧
    ((setMessageState d st s).st b).limits = (s.st b).limits ∧
    ((setMessageState d st s).st b).readSlot = (s.st b).readSlot ∧
    ((setMessageState d st s).st b).confirms = (s.st b).confirms ∧
    ((setMessageState d st s).st b).confirmOverflow = (s.st b).confirmOverflow ∧
    ((setMessageState d st s).st b).wait = (s.st b).wait ∧
    ((setMessageState d st s).st b).lastWait = (s.st b).lastWait ∧
    ((setMessageState d st s).st b).ring = (s.st b).ring ∧
    ((setMessageState d st s).st b).pendingFlags = (s.st b).pendingFlags ∧
    ((setMessageState d st s).st b).enables = (s.st b).enables ∧
    ((setMessageState d st s).st b).disarm = (s.st b).disarm ∧
    ((setMessageState d st s).st b).levels = (s.st b).levels ∧
    ((setMessageState d st s).st b).vectorBase = (s.st b).vectorBase ∧
    ((setMessageState d st s).st b).inService = (s.st b).inService ∧
    ((setMessageState d st s).st b).fault = (s.st b).fault ∧
    ((setMessageState d st s).st b).multiple = (s.st b).multiple := by
  unfold setMessageState; split <;> simp

@[simp] theorem announceClass_frame (a : StationId) (c : ClassId) (s : State) :
    (announceClass a s c).supervisor = s.supervisor ∧
    (announceClass a s c).channels = s.channels ∧
    (announceClass a s c).locks = s.locks ∧
    (announceClass a s c).freeCells = s.freeCells ∧
    (announceClass a s c).freeDescs = s.freeDescs ∧
    (announceClass a s c).messages = s.messages ∧
    (announceClass a s c).cellStore = s.cellStore ∧
    (announceClass a s c).roomQueue = s.roomQueue ∧
    (announceClass a s c).engine = s.engine ∧
    (announceClass a s c).gap = s.gap ∧
    (announceClass a s c).rrPointer = s.rrPointer ∧
    (announceClass a s c).burst = s.burst ∧
    (announceClass a s c).responseLimit = s.responseLimit ∧
    (announceClass a s c).retryBudget = s.retryBudget ∧
    (announceClass a s c).burstLimit = s.burstLimit ∧
    (announceClass a s c).tickDiv = s.tickDiv ∧
    (announceClass a s c).tickCount = s.tickCount ∧
    (announceClass a s c).answer = s.answer ∧
    (announceClass a s c).pending = s.pending := by
  unfold announceClass; split <;> simp

@[simp] theorem announceClass_reads (a : StationId) (c : ClassId) (s : State) :
    (∀ c', (announceClass a s c).chan c' = s.chan c') ∧ (∀ l', (announceClass a s c).lock l' = s.lock l') ∧ (∀ d', (announceClass a s c).msg d' = s.msg d') := by
  simp [State.chan, State.lock, State.msg]

@[simp] theorem announceClass_stations (a : StationId) (c : ClassId) (s : State) (b : StationId) :
    ((announceClass a s c).st b).state = (s.st b).state ∧
    ((announceClass a s c).st b).seqCounter = (s.st b).seqCounter ∧
    ((announceClass a s c).st b).roomWaitLimit = (s.st b).roomWaitLimit ∧
    ((announceClass a s c).st b).lockWaitLimit = (s.st b).lockWaitLimit ∧
    ((announceClass a s c).st b).result = (s.st b).result ∧
    ((announceClass a s c).st b).supOperand = (s.st b).supOperand ∧
    ((announceClass a s c).st b).staging = (s.st b).staging ∧
    ((announceClass a s c).st b).sendTag = (s.st b).sendTag ∧
    ((announceClass a s c).st b).send = (s.st b).send ∧
    ((announceClass a s c).st b).sendResult = (s.st b).sendResult ∧
    ((announceClass a s c).st b).queues = (s.st b).queues ∧
    ((announceClass a s c).st b).limits = (s.st b).limits ∧
    ((announceClass a s c).st b).readSlot = (s.st b).readSlot ∧
    ((announceClass a s c).st b).confirms = (s.st b).confirms ∧
    ((announceClass a s c).st b).confirmOverflow = (s.st b).confirmOverflow ∧
    ((announceClass a s c).st b).wait = (s.st b).wait ∧
    ((announceClass a s c).st b).lastWait = (s.st b).lastWait ∧
    ((announceClass a s c).st b).ring = (s.st b).ring ∧
    ((announceClass a s c).st b).enables = (s.st b).enables ∧
    ((announceClass a s c).st b).disarm = (s.st b).disarm ∧
    ((announceClass a s c).st b).levels = (s.st b).levels ∧
    ((announceClass a s c).st b).vectorBase = (s.st b).vectorBase ∧
    ((announceClass a s c).st b).inService = (s.st b).inService ∧
    ((announceClass a s c).st b).fault = (s.st b).fault ∧
    ((announceClass a s c).st b).multiple = (s.st b).multiple := by
  unfold announceClass; split <;> simp

@[simp] theorem announceQueues_frame (a : StationId) (s : State) :
    (announceQueues a s).supervisor = s.supervisor ∧
    (announceQueues a s).channels = s.channels ∧
    (announceQueues a s).locks = s.locks ∧
    (announceQueues a s).freeCells = s.freeCells ∧
    (announceQueues a s).freeDescs = s.freeDescs ∧
    (announceQueues a s).messages = s.messages ∧
    (announceQueues a s).cellStore = s.cellStore ∧
    (announceQueues a s).roomQueue = s.roomQueue ∧
    (announceQueues a s).engine = s.engine ∧
    (announceQueues a s).gap = s.gap ∧
    (announceQueues a s).rrPointer = s.rrPointer ∧
    (announceQueues a s).burst = s.burst ∧
    (announceQueues a s).responseLimit = s.responseLimit ∧
    (announceQueues a s).retryBudget = s.retryBudget ∧
    (announceQueues a s).burstLimit = s.burstLimit ∧
    (announceQueues a s).tickDiv = s.tickDiv ∧
    (announceQueues a s).tickCount = s.tickCount ∧
    (announceQueues a s).answer = s.answer ∧
    (announceQueues a s).pending = s.pending := by
  unfold announceQueues
  generalize allClasses = cs
  induction cs generalizing s with
  | nil => simp
  | cons c rest ih =>
    rw [List.foldl_cons]
    simp [ih]

@[simp] theorem announceQueues_reads (a : StationId) (s : State) :
    (∀ c', (announceQueues a s).chan c' = s.chan c') ∧ (∀ l', (announceQueues a s).lock l' = s.lock l') ∧ (∀ d', (announceQueues a s).msg d' = s.msg d') := by
  simp [State.chan, State.lock, State.msg]

@[simp] theorem announceQueues_stations (a : StationId) (s : State) (b : StationId) :
    ((announceQueues a s).st b).state = (s.st b).state ∧
    ((announceQueues a s).st b).seqCounter = (s.st b).seqCounter ∧
    ((announceQueues a s).st b).roomWaitLimit = (s.st b).roomWaitLimit ∧
    ((announceQueues a s).st b).lockWaitLimit = (s.st b).lockWaitLimit ∧
    ((announceQueues a s).st b).result = (s.st b).result ∧
    ((announceQueues a s).st b).supOperand = (s.st b).supOperand ∧
    ((announceQueues a s).st b).staging = (s.st b).staging ∧
    ((announceQueues a s).st b).sendTag = (s.st b).sendTag ∧
    ((announceQueues a s).st b).send = (s.st b).send ∧
    ((announceQueues a s).st b).sendResult = (s.st b).sendResult ∧
    ((announceQueues a s).st b).queues = (s.st b).queues ∧
    ((announceQueues a s).st b).limits = (s.st b).limits ∧
    ((announceQueues a s).st b).readSlot = (s.st b).readSlot ∧
    ((announceQueues a s).st b).confirms = (s.st b).confirms ∧
    ((announceQueues a s).st b).confirmOverflow = (s.st b).confirmOverflow ∧
    ((announceQueues a s).st b).wait = (s.st b).wait ∧
    ((announceQueues a s).st b).lastWait = (s.st b).lastWait ∧
    ((announceQueues a s).st b).ring = (s.st b).ring ∧
    ((announceQueues a s).st b).enables = (s.st b).enables ∧
    ((announceQueues a s).st b).disarm = (s.st b).disarm ∧
    ((announceQueues a s).st b).levels = (s.st b).levels ∧
    ((announceQueues a s).st b).vectorBase = (s.st b).vectorBase ∧
    ((announceQueues a s).st b).inService = (s.st b).inService ∧
    ((announceQueues a s).st b).fault = (s.st b).fault ∧
    ((announceQueues a s).st b).multiple = (s.st b).multiple := by
  unfold announceQueues
  generalize allClasses = cs
  induction cs generalizing s with
  | nil => simp
  | cons c rest ih =>
    rw [List.foldl_cons]
    simp [ih]

@[simp] theorem takeHead_frame (a : StationId) (c : ClassId) (d : DescId) (s : State) :
    (takeHead a c d s).supervisor = s.supervisor ∧
    (takeHead a c d s).channels = s.channels ∧
    (takeHead a c d s).freeCells = s.freeCells ∧
    (takeHead a c d s).freeDescs = s.freeDescs ∧
    (takeHead a c d s).cellStore = s.cellStore ∧
    (takeHead a c d s).roomQueue = s.roomQueue ∧
    (takeHead a c d s).engine = s.engine ∧
    (takeHead a c d s).gap = s.gap ∧
    (takeHead a c d s).rrPointer = s.rrPointer ∧
    (takeHead a c d s).burst = s.burst ∧
    (takeHead a c d s).responseLimit = s.responseLimit ∧
    (takeHead a c d s).retryBudget = s.retryBudget ∧
    (takeHead a c d s).burstLimit = s.burstLimit ∧
    (takeHead a c d s).tickDiv = s.tickDiv ∧
    (takeHead a c d s).tickCount = s.tickCount ∧
    (takeHead a c d s).answer = s.answer ∧
    (takeHead a c d s).pending = s.pending := by
  unfold takeHead; split <;> simp

@[simp] theorem takeHead_reads (a : StationId) (c : ClassId) (d : DescId) (s : State) :
    (∀ c', (takeHead a c d s).chan c' = s.chan c') := by
  simp [State.chan]

@[simp] theorem takeHead_stations (a : StationId) (c : ClassId) (d : DescId) (s : State) (b : StationId) :
    ((takeHead a c d s).st b).state = (s.st b).state ∧
    ((takeHead a c d s).st b).seqCounter = (s.st b).seqCounter ∧
    ((takeHead a c d s).st b).roomWaitLimit = (s.st b).roomWaitLimit ∧
    ((takeHead a c d s).st b).lockWaitLimit = (s.st b).lockWaitLimit ∧
    ((takeHead a c d s).st b).result = (s.st b).result ∧
    ((takeHead a c d s).st b).supOperand = (s.st b).supOperand ∧
    ((takeHead a c d s).st b).staging = (s.st b).staging ∧
    ((takeHead a c d s).st b).sendTag = (s.st b).sendTag ∧
    ((takeHead a c d s).st b).send = (s.st b).send ∧
    ((takeHead a c d s).st b).sendResult = (s.st b).sendResult ∧
    ((takeHead a c d s).st b).limits = (s.st b).limits ∧
    ((takeHead a c d s).st b).confirms = (s.st b).confirms ∧
    ((takeHead a c d s).st b).confirmOverflow = (s.st b).confirmOverflow ∧
    ((takeHead a c d s).st b).ring = (s.st b).ring ∧
    ((takeHead a c d s).st b).enables = (s.st b).enables ∧
    ((takeHead a c d s).st b).disarm = (s.st b).disarm ∧
    ((takeHead a c d s).st b).levels = (s.st b).levels ∧
    ((takeHead a c d s).st b).vectorBase = (s.st b).vectorBase ∧
    ((takeHead a c d s).st b).inService = (s.st b).inService ∧
    ((takeHead a c d s).st b).fault = (s.st b).fault ∧
    ((takeHead a c d s).st b).multiple = (s.st b).multiple := by
  unfold takeHead; split
  · by_cases h : b = a
    · subst h; simp [StationRec.setQueue]
    · simp [h]
  · simp

@[simp] theorem enqueue_frame (d : DescId) (m : Message) (s : State) :
    (enqueue d m s).supervisor = s.supervisor ∧
    (enqueue d m s).channels = s.channels ∧
    (enqueue d m s).locks = s.locks ∧
    (enqueue d m s).freeCells = s.freeCells ∧
    (enqueue d m s).freeDescs = s.freeDescs ∧
    (enqueue d m s).cellStore = s.cellStore ∧
    (enqueue d m s).roomQueue = s.roomQueue ∧
    (enqueue d m s).engine = s.engine ∧
    (enqueue d m s).gap = s.gap ∧
    (enqueue d m s).rrPointer = s.rrPointer ∧
    (enqueue d m s).burst = s.burst ∧
    (enqueue d m s).responseLimit = s.responseLimit ∧
    (enqueue d m s).retryBudget = s.retryBudget ∧
    (enqueue d m s).burstLimit = s.burstLimit ∧
    (enqueue d m s).tickDiv = s.tickDiv ∧
    (enqueue d m s).tickCount = s.tickCount ∧
    (enqueue d m s).answer = s.answer ∧
    (enqueue d m s).pending = s.pending := by
  unfold enqueue; dsimp only; split <;> simp

@[simp] theorem enqueue_reads (d : DescId) (m : Message) (s : State) :
    (∀ c', (enqueue d m s).chan c' = s.chan c') ∧ (∀ l', (enqueue d m s).lock l' = s.lock l') := by
  simp [State.chan, State.lock]

@[simp] theorem enqueue_stations (d : DescId) (m : Message) (s : State) (b : StationId) :
    ((enqueue d m s).st b).state = (s.st b).state ∧
    ((enqueue d m s).st b).seqCounter = (s.st b).seqCounter ∧
    ((enqueue d m s).st b).roomWaitLimit = (s.st b).roomWaitLimit ∧
    ((enqueue d m s).st b).lockWaitLimit = (s.st b).lockWaitLimit ∧
    ((enqueue d m s).st b).result = (s.st b).result ∧
    ((enqueue d m s).st b).supOperand = (s.st b).supOperand ∧
    ((enqueue d m s).st b).staging = (s.st b).staging ∧
    ((enqueue d m s).st b).sendTag = (s.st b).sendTag ∧
    ((enqueue d m s).st b).send = (s.st b).send ∧
    ((enqueue d m s).st b).sendResult = (s.st b).sendResult ∧
    ((enqueue d m s).st b).limits = (s.st b).limits ∧
    ((enqueue d m s).st b).readSlot = (s.st b).readSlot ∧
    ((enqueue d m s).st b).confirms = (s.st b).confirms ∧
    ((enqueue d m s).st b).confirmOverflow = (s.st b).confirmOverflow ∧
    ((enqueue d m s).st b).wait = (s.st b).wait ∧
    ((enqueue d m s).st b).lastWait = (s.st b).lastWait ∧
    ((enqueue d m s).st b).ring = (s.st b).ring ∧
    ((enqueue d m s).st b).enables = (s.st b).enables ∧
    ((enqueue d m s).st b).disarm = (s.st b).disarm ∧
    ((enqueue d m s).st b).levels = (s.st b).levels ∧
    ((enqueue d m s).st b).vectorBase = (s.st b).vectorBase ∧
    ((enqueue d m s).st b).inService = (s.st b).inService ∧
    ((enqueue d m s).st b).fault = (s.st b).fault ∧
    ((enqueue d m s).st b).multiple = (s.st b).multiple := by
  unfold enqueue; dsimp only
  by_cases h : b = m.dest
  · subst h; split <;> simp [StationRec.setQueue]
  · split <;> simp [h]

@[simp] theorem adoptDelivery_frame (d : Delivery) (s : State) :
    (adoptDelivery d s).stations = s.stations ∧
    (adoptDelivery d s).supervisor = s.supervisor ∧
    (adoptDelivery d s).channels = s.channels ∧
    (adoptDelivery d s).locks = s.locks ∧
    (adoptDelivery d s).freeCells = s.freeCells ∧
    (adoptDelivery d s).freeDescs = s.freeDescs ∧
    (adoptDelivery d s).cellStore = s.cellStore ∧
    (adoptDelivery d s).roomQueue = s.roomQueue ∧
    (adoptDelivery d s).engine = s.engine ∧
    (adoptDelivery d s).gap = s.gap ∧
    (adoptDelivery d s).burst = s.burst ∧
    (adoptDelivery d s).responseLimit = s.responseLimit ∧
    (adoptDelivery d s).retryBudget = s.retryBudget ∧
    (adoptDelivery d s).burstLimit = s.burstLimit ∧
    (adoptDelivery d s).tickDiv = s.tickDiv ∧
    (adoptDelivery d s).tickCount = s.tickCount ∧
    (adoptDelivery d s).answer = s.answer ∧
    (adoptDelivery d s).pending = s.pending := by simp [adoptDelivery]

@[simp] theorem adoptDelivery_reads (d : Delivery) (s : State) :
    (∀ b', (adoptDelivery d s).st b' = s.st b') ∧ (∀ c', (adoptDelivery d s).chan c' = s.chan c') ∧ (∀ l', (adoptDelivery d s).lock l' = s.lock l') := by
  simp [State.st, State.chan, State.lock]

@[simp] theorem adoptDelivery_stations (d : Delivery) (s : State) (b : StationId) :
    ((adoptDelivery d s).st b).state = (s.st b).state ∧
    ((adoptDelivery d s).st b).seqCounter = (s.st b).seqCounter ∧
    ((adoptDelivery d s).st b).roomWaitLimit = (s.st b).roomWaitLimit ∧
    ((adoptDelivery d s).st b).lockWaitLimit = (s.st b).lockWaitLimit ∧
    ((adoptDelivery d s).st b).result = (s.st b).result ∧
    ((adoptDelivery d s).st b).supOperand = (s.st b).supOperand ∧
    ((adoptDelivery d s).st b).staging = (s.st b).staging ∧
    ((adoptDelivery d s).st b).sendTag = (s.st b).sendTag ∧
    ((adoptDelivery d s).st b).send = (s.st b).send ∧
    ((adoptDelivery d s).st b).sendResult = (s.st b).sendResult ∧
    ((adoptDelivery d s).st b).queues = (s.st b).queues ∧
    ((adoptDelivery d s).st b).limits = (s.st b).limits ∧
    ((adoptDelivery d s).st b).readSlot = (s.st b).readSlot ∧
    ((adoptDelivery d s).st b).confirms = (s.st b).confirms ∧
    ((adoptDelivery d s).st b).confirmOverflow = (s.st b).confirmOverflow ∧
    ((adoptDelivery d s).st b).wait = (s.st b).wait ∧
    ((adoptDelivery d s).st b).lastWait = (s.st b).lastWait ∧
    ((adoptDelivery d s).st b).ring = (s.st b).ring ∧
    ((adoptDelivery d s).st b).pendingFlags = (s.st b).pendingFlags ∧
    ((adoptDelivery d s).st b).enables = (s.st b).enables ∧
    ((adoptDelivery d s).st b).disarm = (s.st b).disarm ∧
    ((adoptDelivery d s).st b).levels = (s.st b).levels ∧
    ((adoptDelivery d s).st b).vectorBase = (s.st b).vectorBase ∧
    ((adoptDelivery d s).st b).inService = (s.st b).inService ∧
    ((adoptDelivery d s).st b).fault = (s.st b).fault ∧
    ((adoptDelivery d s).st b).multiple = (s.st b).multiple := by
  simp [adoptDelivery, State.st]

@[simp] theorem startIfIdle_frame  (s : State) :
    (startIfIdle s).stations = s.stations ∧
    (startIfIdle s).supervisor = s.supervisor ∧
    (startIfIdle s).channels = s.channels ∧
    (startIfIdle s).locks = s.locks ∧
    (startIfIdle s).freeCells = s.freeCells ∧
    (startIfIdle s).freeDescs = s.freeDescs ∧
    (startIfIdle s).cellStore = s.cellStore ∧
    (startIfIdle s).roomQueue = s.roomQueue ∧
    (startIfIdle s).gap = s.gap ∧
    (startIfIdle s).burst = s.burst ∧
    (startIfIdle s).responseLimit = s.responseLimit ∧
    (startIfIdle s).retryBudget = s.retryBudget ∧
    (startIfIdle s).burstLimit = s.burstLimit ∧
    (startIfIdle s).tickDiv = s.tickDiv ∧
    (startIfIdle s).tickCount = s.tickCount ∧
    (startIfIdle s).answer = s.answer ∧
    (startIfIdle s).pending = s.pending := by
  unfold startIfIdle; split <;> simp

@[simp] theorem startIfIdle_reads  (s : State) :
    (∀ b', (startIfIdle s).st b' = s.st b') ∧ (∀ c', (startIfIdle s).chan c' = s.chan c') ∧ (∀ l', (startIfIdle s).lock l' = s.lock l') := by
  simp [State.st, State.chan, State.lock]

@[simp] theorem startIfIdle_stations  (s : State) (b : StationId) :
    ((startIfIdle s).st b).state = (s.st b).state ∧
    ((startIfIdle s).st b).seqCounter = (s.st b).seqCounter ∧
    ((startIfIdle s).st b).roomWaitLimit = (s.st b).roomWaitLimit ∧
    ((startIfIdle s).st b).lockWaitLimit = (s.st b).lockWaitLimit ∧
    ((startIfIdle s).st b).result = (s.st b).result ∧
    ((startIfIdle s).st b).supOperand = (s.st b).supOperand ∧
    ((startIfIdle s).st b).staging = (s.st b).staging ∧
    ((startIfIdle s).st b).sendTag = (s.st b).sendTag ∧
    ((startIfIdle s).st b).send = (s.st b).send ∧
    ((startIfIdle s).st b).sendResult = (s.st b).sendResult ∧
    ((startIfIdle s).st b).queues = (s.st b).queues ∧
    ((startIfIdle s).st b).limits = (s.st b).limits ∧
    ((startIfIdle s).st b).readSlot = (s.st b).readSlot ∧
    ((startIfIdle s).st b).confirms = (s.st b).confirms ∧
    ((startIfIdle s).st b).confirmOverflow = (s.st b).confirmOverflow ∧
    ((startIfIdle s).st b).wait = (s.st b).wait ∧
    ((startIfIdle s).st b).lastWait = (s.st b).lastWait ∧
    ((startIfIdle s).st b).ring = (s.st b).ring ∧
    ((startIfIdle s).st b).pendingFlags = (s.st b).pendingFlags ∧
    ((startIfIdle s).st b).enables = (s.st b).enables ∧
    ((startIfIdle s).st b).disarm = (s.st b).disarm ∧
    ((startIfIdle s).st b).levels = (s.st b).levels ∧
    ((startIfIdle s).st b).vectorBase = (s.st b).vectorBase ∧
    ((startIfIdle s).st b).inService = (s.st b).inService ∧
    ((startIfIdle s).st b).fault = (s.st b).fault ∧
    ((startIfIdle s).st b).multiple = (s.st b).multiple := by
  unfold startIfIdle; split
  · simp [State.st]
  · simp

@[simp] theorem issueWrite_frame (d : Delivery) (s : State) :
    (issueWrite d s).stations = s.stations ∧
    (issueWrite d s).supervisor = s.supervisor ∧
    (issueWrite d s).channels = s.channels ∧
    (issueWrite d s).locks = s.locks ∧
    (issueWrite d s).freeCells = s.freeCells ∧
    (issueWrite d s).freeDescs = s.freeDescs ∧
    (issueWrite d s).messages = s.messages ∧
    (issueWrite d s).cellStore = s.cellStore ∧
    (issueWrite d s).roomQueue = s.roomQueue ∧
    (issueWrite d s).gap = s.gap ∧
    (issueWrite d s).rrPointer = s.rrPointer ∧
    (issueWrite d s).burst = s.burst ∧
    (issueWrite d s).responseLimit = s.responseLimit ∧
    (issueWrite d s).retryBudget = s.retryBudget ∧
    (issueWrite d s).burstLimit = s.burstLimit ∧
    (issueWrite d s).tickDiv = s.tickDiv ∧
    (issueWrite d s).tickCount = s.tickCount ∧
    (issueWrite d s).answer = s.answer ∧
    (issueWrite d s).pending = s.pending := by simp [issueWrite]

@[simp] theorem issueWrite_reads (d : Delivery) (s : State) :
    (∀ b', (issueWrite d s).st b' = s.st b') ∧ (∀ c', (issueWrite d s).chan c' = s.chan c') ∧ (∀ l', (issueWrite d s).lock l' = s.lock l') ∧ (∀ d', (issueWrite d s).msg d' = s.msg d') := by
  simp [State.st, State.chan, State.lock, State.msg]

@[simp] theorem issueWrite_stations (d : Delivery) (s : State) (b : StationId) :
    ((issueWrite d s).st b).state = (s.st b).state ∧
    ((issueWrite d s).st b).seqCounter = (s.st b).seqCounter ∧
    ((issueWrite d s).st b).roomWaitLimit = (s.st b).roomWaitLimit ∧
    ((issueWrite d s).st b).lockWaitLimit = (s.st b).lockWaitLimit ∧
    ((issueWrite d s).st b).result = (s.st b).result ∧
    ((issueWrite d s).st b).supOperand = (s.st b).supOperand ∧
    ((issueWrite d s).st b).staging = (s.st b).staging ∧
    ((issueWrite d s).st b).sendTag = (s.st b).sendTag ∧
    ((issueWrite d s).st b).send = (s.st b).send ∧
    ((issueWrite d s).st b).sendResult = (s.st b).sendResult ∧
    ((issueWrite d s).st b).queues = (s.st b).queues ∧
    ((issueWrite d s).st b).limits = (s.st b).limits ∧
    ((issueWrite d s).st b).readSlot = (s.st b).readSlot ∧
    ((issueWrite d s).st b).confirms = (s.st b).confirms ∧
    ((issueWrite d s).st b).confirmOverflow = (s.st b).confirmOverflow ∧
    ((issueWrite d s).st b).wait = (s.st b).wait ∧
    ((issueWrite d s).st b).lastWait = (s.st b).lastWait ∧
    ((issueWrite d s).st b).ring = (s.st b).ring ∧
    ((issueWrite d s).st b).pendingFlags = (s.st b).pendingFlags ∧
    ((issueWrite d s).st b).enables = (s.st b).enables ∧
    ((issueWrite d s).st b).disarm = (s.st b).disarm ∧
    ((issueWrite d s).st b).levels = (s.st b).levels ∧
    ((issueWrite d s).st b).vectorBase = (s.st b).vectorBase ∧
    ((issueWrite d s).st b).inService = (s.st b).inService ∧
    ((issueWrite d s).st b).fault = (s.st b).fault ∧
    ((issueWrite d s).st b).multiple = (s.st b).multiple := by simp [issueWrite]

@[simp] theorem releaseToIdle_frame  (s : State) :
    (releaseToIdle s).stations = s.stations ∧
    (releaseToIdle s).supervisor = s.supervisor ∧
    (releaseToIdle s).channels = s.channels ∧
    (releaseToIdle s).locks = s.locks ∧
    (releaseToIdle s).freeCells = s.freeCells ∧
    (releaseToIdle s).freeDescs = s.freeDescs ∧
    (releaseToIdle s).cellStore = s.cellStore ∧
    (releaseToIdle s).roomQueue = s.roomQueue ∧
    (releaseToIdle s).burst = s.burst ∧
    (releaseToIdle s).responseLimit = s.responseLimit ∧
    (releaseToIdle s).retryBudget = s.retryBudget ∧
    (releaseToIdle s).burstLimit = s.burstLimit ∧
    (releaseToIdle s).tickDiv = s.tickDiv ∧
    (releaseToIdle s).tickCount = s.tickCount ∧
    (releaseToIdle s).answer = s.answer ∧
    (releaseToIdle s).pending = s.pending := by simp [releaseToIdle]

@[simp] theorem releaseToIdle_reads  (s : State) :
    (∀ b', (releaseToIdle s).st b' = s.st b') ∧ (∀ c', (releaseToIdle s).chan c' = s.chan c') ∧ (∀ l', (releaseToIdle s).lock l' = s.lock l') := by
  simp [State.st, State.chan, State.lock]

@[simp] theorem releaseToIdle_stations  (s : State) (b : StationId) :
    ((releaseToIdle s).st b).state = (s.st b).state ∧
    ((releaseToIdle s).st b).seqCounter = (s.st b).seqCounter ∧
    ((releaseToIdle s).st b).roomWaitLimit = (s.st b).roomWaitLimit ∧
    ((releaseToIdle s).st b).lockWaitLimit = (s.st b).lockWaitLimit ∧
    ((releaseToIdle s).st b).result = (s.st b).result ∧
    ((releaseToIdle s).st b).supOperand = (s.st b).supOperand ∧
    ((releaseToIdle s).st b).staging = (s.st b).staging ∧
    ((releaseToIdle s).st b).sendTag = (s.st b).sendTag ∧
    ((releaseToIdle s).st b).send = (s.st b).send ∧
    ((releaseToIdle s).st b).sendResult = (s.st b).sendResult ∧
    ((releaseToIdle s).st b).queues = (s.st b).queues ∧
    ((releaseToIdle s).st b).limits = (s.st b).limits ∧
    ((releaseToIdle s).st b).readSlot = (s.st b).readSlot ∧
    ((releaseToIdle s).st b).confirms = (s.st b).confirms ∧
    ((releaseToIdle s).st b).confirmOverflow = (s.st b).confirmOverflow ∧
    ((releaseToIdle s).st b).wait = (s.st b).wait ∧
    ((releaseToIdle s).st b).lastWait = (s.st b).lastWait ∧
    ((releaseToIdle s).st b).ring = (s.st b).ring ∧
    ((releaseToIdle s).st b).pendingFlags = (s.st b).pendingFlags ∧
    ((releaseToIdle s).st b).enables = (s.st b).enables ∧
    ((releaseToIdle s).st b).disarm = (s.st b).disarm ∧
    ((releaseToIdle s).st b).levels = (s.st b).levels ∧
    ((releaseToIdle s).st b).vectorBase = (s.st b).vectorBase ∧
    ((releaseToIdle s).st b).inService = (s.st b).inService ∧
    ((releaseToIdle s).st b).fault = (s.st b).fault ∧
    ((releaseToIdle s).st b).multiple = (s.st b).multiple := by simp [releaseToIdle]

@[simp] theorem disableRing_frame (a : StationId) (s : State) :
    (disableRing a s).supervisor = s.supervisor ∧
    (disableRing a s).channels = s.channels ∧
    (disableRing a s).locks = s.locks ∧
    (disableRing a s).freeCells = s.freeCells ∧
    (disableRing a s).freeDescs = s.freeDescs ∧
    (disableRing a s).messages = s.messages ∧
    (disableRing a s).cellStore = s.cellStore ∧
    (disableRing a s).roomQueue = s.roomQueue ∧
    (disableRing a s).engine = s.engine ∧
    (disableRing a s).gap = s.gap ∧
    (disableRing a s).rrPointer = s.rrPointer ∧
    (disableRing a s).burst = s.burst ∧
    (disableRing a s).responseLimit = s.responseLimit ∧
    (disableRing a s).retryBudget = s.retryBudget ∧
    (disableRing a s).burstLimit = s.burstLimit ∧
    (disableRing a s).tickDiv = s.tickDiv ∧
    (disableRing a s).tickCount = s.tickCount ∧
    (disableRing a s).answer = s.answer ∧
    (disableRing a s).pending = s.pending := by simp [disableRing]

@[simp] theorem disableRing_reads (a : StationId) (s : State) :
    (∀ c', (disableRing a s).chan c' = s.chan c') ∧ (∀ l', (disableRing a s).lock l' = s.lock l') ∧ (∀ d', (disableRing a s).msg d' = s.msg d') := by
  simp [State.chan, State.lock, State.msg]

@[simp] theorem disableRing_stations (a : StationId) (s : State) (b : StationId) :
    ((disableRing a s).st b).state = (s.st b).state ∧
    ((disableRing a s).st b).seqCounter = (s.st b).seqCounter ∧
    ((disableRing a s).st b).roomWaitLimit = (s.st b).roomWaitLimit ∧
    ((disableRing a s).st b).lockWaitLimit = (s.st b).lockWaitLimit ∧
    ((disableRing a s).st b).result = (s.st b).result ∧
    ((disableRing a s).st b).supOperand = (s.st b).supOperand ∧
    ((disableRing a s).st b).staging = (s.st b).staging ∧
    ((disableRing a s).st b).sendTag = (s.st b).sendTag ∧
    ((disableRing a s).st b).send = (s.st b).send ∧
    ((disableRing a s).st b).sendResult = (s.st b).sendResult ∧
    ((disableRing a s).st b).queues = (s.st b).queues ∧
    ((disableRing a s).st b).limits = (s.st b).limits ∧
    ((disableRing a s).st b).readSlot = (s.st b).readSlot ∧
    ((disableRing a s).st b).confirms = (s.st b).confirms ∧
    ((disableRing a s).st b).confirmOverflow = (s.st b).confirmOverflow ∧
    ((disableRing a s).st b).wait = (s.st b).wait ∧
    ((disableRing a s).st b).lastWait = (s.st b).lastWait ∧
    ((disableRing a s).st b).enables = (s.st b).enables ∧
    ((disableRing a s).st b).disarm = (s.st b).disarm ∧
    ((disableRing a s).st b).levels = (s.st b).levels ∧
    ((disableRing a s).st b).vectorBase = (s.st b).vectorBase ∧
    ((disableRing a s).st b).inService = (s.st b).inService ∧
    ((disableRing a s).st b).fault = (s.st b).fault ∧
    ((disableRing a s).st b).multiple = (s.st b).multiple := by
  by_cases h : b = a
  · subst h; simp [disableRing]
  · simp [disableRing, h]

@[simp] theorem faultDelivery_frame (d : Delivery) (code : FaultCode) (addr : Word) (s : State) :
    (faultDelivery d code addr s).supervisor = s.supervisor ∧
    (faultDelivery d code addr s).channels = s.channels ∧
    (faultDelivery d code addr s).locks = s.locks ∧
    (faultDelivery d code addr s).freeCells = s.freeCells ∧
    (faultDelivery d code addr s).freeDescs = s.freeDescs ∧
    (faultDelivery d code addr s).cellStore = s.cellStore ∧
    (faultDelivery d code addr s).roomQueue = s.roomQueue ∧
    (faultDelivery d code addr s).burst = s.burst ∧
    (faultDelivery d code addr s).responseLimit = s.responseLimit ∧
    (faultDelivery d code addr s).retryBudget = s.retryBudget ∧
    (faultDelivery d code addr s).burstLimit = s.burstLimit ∧
    (faultDelivery d code addr s).tickDiv = s.tickDiv ∧
    (faultDelivery d code addr s).tickCount = s.tickCount ∧
    (faultDelivery d code addr s).answer = s.answer ∧
    (faultDelivery d code addr s).pending = s.pending := by
  unfold faultDelivery; dsimp only; split <;> simp

@[simp] theorem faultDelivery_reads (d : Delivery) (code : FaultCode) (addr : Word) (s : State) :
    (∀ c', (faultDelivery d code addr s).chan c' = s.chan c') ∧ (∀ l', (faultDelivery d code addr s).lock l' = s.lock l') := by
  simp [State.chan, State.lock]

@[simp] theorem faultDelivery_stations (d : Delivery) (code : FaultCode) (addr : Word) (s : State) (b : StationId) :
    ((faultDelivery d code addr s).st b).state = (s.st b).state ∧
    ((faultDelivery d code addr s).st b).seqCounter = (s.st b).seqCounter ∧
    ((faultDelivery d code addr s).st b).roomWaitLimit = (s.st b).roomWaitLimit ∧
    ((faultDelivery d code addr s).st b).lockWaitLimit = (s.st b).lockWaitLimit ∧
    ((faultDelivery d code addr s).st b).result = (s.st b).result ∧
    ((faultDelivery d code addr s).st b).supOperand = (s.st b).supOperand ∧
    ((faultDelivery d code addr s).st b).staging = (s.st b).staging ∧
    ((faultDelivery d code addr s).st b).sendTag = (s.st b).sendTag ∧
    ((faultDelivery d code addr s).st b).send = (s.st b).send ∧
    ((faultDelivery d code addr s).st b).sendResult = (s.st b).sendResult ∧
    ((faultDelivery d code addr s).st b).queues = (s.st b).queues ∧
    ((faultDelivery d code addr s).st b).limits = (s.st b).limits ∧
    ((faultDelivery d code addr s).st b).readSlot = (s.st b).readSlot ∧
    ((faultDelivery d code addr s).st b).confirms = (s.st b).confirms ∧
    ((faultDelivery d code addr s).st b).confirmOverflow = (s.st b).confirmOverflow ∧
    ((faultDelivery d code addr s).st b).wait = (s.st b).wait ∧
    ((faultDelivery d code addr s).st b).lastWait = (s.st b).lastWait ∧
    ((faultDelivery d code addr s).st b).enables = (s.st b).enables ∧
    ((faultDelivery d code addr s).st b).disarm = (s.st b).disarm ∧
    ((faultDelivery d code addr s).st b).levels = (s.st b).levels ∧
    ((faultDelivery d code addr s).st b).vectorBase = (s.st b).vectorBase ∧
    ((faultDelivery d code addr s).st b).inService = (s.st b).inService := by
  unfold faultDelivery; dsimp only; split
  · simp
  · by_cases h : b = d.station
    · subst h; simp
    · simp [h]

@[simp] theorem abandonDelivery_frame (a : StationId) (s : State) :
    (abandonDelivery a s).supervisor = s.supervisor ∧
    (abandonDelivery a s).channels = s.channels ∧
    (abandonDelivery a s).locks = s.locks ∧
    (abandonDelivery a s).freeCells = s.freeCells ∧
    (abandonDelivery a s).freeDescs = s.freeDescs ∧
    (abandonDelivery a s).cellStore = s.cellStore ∧
    (abandonDelivery a s).roomQueue = s.roomQueue ∧
    (abandonDelivery a s).burst = s.burst ∧
    (abandonDelivery a s).responseLimit = s.responseLimit ∧
    (abandonDelivery a s).retryBudget = s.retryBudget ∧
    (abandonDelivery a s).burstLimit = s.burstLimit ∧
    (abandonDelivery a s).tickDiv = s.tickDiv ∧
    (abandonDelivery a s).tickCount = s.tickCount ∧
    (abandonDelivery a s).answer = s.answer ∧
    (abandonDelivery a s).pending = s.pending := by
  unfold abandonDelivery; split
  · split <;> simp
  · simp

@[simp] theorem abandonDelivery_reads (a : StationId) (s : State) :
    (∀ c', (abandonDelivery a s).chan c' = s.chan c') ∧ (∀ l', (abandonDelivery a s).lock l' = s.lock l') := by
  simp [State.chan, State.lock]

@[simp] theorem abandonDelivery_stations (a : StationId) (s : State) (b : StationId) :
    ((abandonDelivery a s).st b).state = (s.st b).state ∧
    ((abandonDelivery a s).st b).seqCounter = (s.st b).seqCounter ∧
    ((abandonDelivery a s).st b).roomWaitLimit = (s.st b).roomWaitLimit ∧
    ((abandonDelivery a s).st b).lockWaitLimit = (s.st b).lockWaitLimit ∧
    ((abandonDelivery a s).st b).result = (s.st b).result ∧
    ((abandonDelivery a s).st b).supOperand = (s.st b).supOperand ∧
    ((abandonDelivery a s).st b).staging = (s.st b).staging ∧
    ((abandonDelivery a s).st b).sendTag = (s.st b).sendTag ∧
    ((abandonDelivery a s).st b).send = (s.st b).send ∧
    ((abandonDelivery a s).st b).sendResult = (s.st b).sendResult ∧
    ((abandonDelivery a s).st b).queues = (s.st b).queues ∧
    ((abandonDelivery a s).st b).limits = (s.st b).limits ∧
    ((abandonDelivery a s).st b).readSlot = (s.st b).readSlot ∧
    ((abandonDelivery a s).st b).confirms = (s.st b).confirms ∧
    ((abandonDelivery a s).st b).confirmOverflow = (s.st b).confirmOverflow ∧
    ((abandonDelivery a s).st b).wait = (s.st b).wait ∧
    ((abandonDelivery a s).st b).lastWait = (s.st b).lastWait ∧
    ((abandonDelivery a s).st b).pendingFlags = (s.st b).pendingFlags ∧
    ((abandonDelivery a s).st b).enables = (s.st b).enables ∧
    ((abandonDelivery a s).st b).disarm = (s.st b).disarm ∧
    ((abandonDelivery a s).st b).levels = (s.st b).levels ∧
    ((abandonDelivery a s).st b).vectorBase = (s.st b).vectorBase ∧
    ((abandonDelivery a s).st b).inService = (s.st b).inService ∧
    ((abandonDelivery a s).st b).fault = (s.st b).fault ∧
    ((abandonDelivery a s).st b).multiple = (s.st b).multiple := by
  unfold abandonDelivery; split
  · split
    · by_cases h : b = a
      · subst h
        by_cases hd : (s.st b).ring.state = .disabling <;> simp [hd]
      · simp [h]
    · simp
  · simp

@[simp] theorem discardAll_frame (ds : List DescId) (s : State) :
    (discardAll ds s).supervisor = s.supervisor ∧
    (discardAll ds s).cellStore = s.cellStore ∧
    (discardAll ds s).engine = s.engine ∧
    (discardAll ds s).gap = s.gap ∧
    (discardAll ds s).rrPointer = s.rrPointer ∧
    (discardAll ds s).burst = s.burst ∧
    (discardAll ds s).responseLimit = s.responseLimit ∧
    (discardAll ds s).retryBudget = s.retryBudget ∧
    (discardAll ds s).burstLimit = s.burstLimit ∧
    (discardAll ds s).tickDiv = s.tickDiv ∧
    (discardAll ds s).tickCount = s.tickCount ∧
    (discardAll ds s).answer = s.answer ∧
    (discardAll ds s).pending = s.pending := by
  induction ds generalizing s with
  | nil => simp [discardAll]
  | cons d rest ih =>
    unfold discardAll at ih ⊢
    rw [List.foldl_cons]
    simp [ih]

@[simp] theorem discardAll_stations (ds : List DescId) (s : State) (b : StationId) :
    ((discardAll ds s).st b).state = (s.st b).state ∧
    ((discardAll ds s).st b).seqCounter = (s.st b).seqCounter ∧
    ((discardAll ds s).st b).roomWaitLimit = (s.st b).roomWaitLimit ∧
    ((discardAll ds s).st b).lockWaitLimit = (s.st b).lockWaitLimit ∧
    ((discardAll ds s).st b).result = (s.st b).result ∧
    ((discardAll ds s).st b).supOperand = (s.st b).supOperand ∧
    ((discardAll ds s).st b).staging = (s.st b).staging ∧
    ((discardAll ds s).st b).sendTag = (s.st b).sendTag ∧
    ((discardAll ds s).st b).sendResult = (s.st b).sendResult ∧
    ((discardAll ds s).st b).queues = (s.st b).queues ∧
    ((discardAll ds s).st b).limits = (s.st b).limits ∧
    ((discardAll ds s).st b).readSlot = (s.st b).readSlot ∧
    ((discardAll ds s).st b).ring = (s.st b).ring ∧
    ((discardAll ds s).st b).enables = (s.st b).enables ∧
    ((discardAll ds s).st b).disarm = (s.st b).disarm ∧
    ((discardAll ds s).st b).levels = (s.st b).levels ∧
    ((discardAll ds s).st b).vectorBase = (s.st b).vectorBase ∧
    ((discardAll ds s).st b).inService = (s.st b).inService := by
  induction ds generalizing s with
  | nil => simp [discardAll]
  | cons d rest ih =>
    unfold discardAll at ih ⊢
    rw [List.foldl_cons]
    simp [ih]

@[simp] theorem purge_frame (a : StationId) (s : State) :
    (purge a s).supervisor = s.supervisor ∧
    (purge a s).cellStore = s.cellStore ∧
    (purge a s).engine = s.engine ∧
    (purge a s).gap = s.gap ∧
    (purge a s).rrPointer = s.rrPointer ∧
    (purge a s).burst = s.burst ∧
    (purge a s).responseLimit = s.responseLimit ∧
    (purge a s).retryBudget = s.retryBudget ∧
    (purge a s).burstLimit = s.burstLimit ∧
    (purge a s).tickDiv = s.tickDiv ∧
    (purge a s).tickCount = s.tickCount ∧
    (purge a s).answer = s.answer ∧
    (purge a s).pending = s.pending := by simp [purge]

@[simp] theorem purge_stations (a : StationId) (s : State) (b : StationId) :
    ((purge a s).st b).state = (s.st b).state ∧
    ((purge a s).st b).seqCounter = (s.st b).seqCounter ∧
    ((purge a s).st b).roomWaitLimit = (s.st b).roomWaitLimit ∧
    ((purge a s).st b).lockWaitLimit = (s.st b).lockWaitLimit ∧
    ((purge a s).st b).result = (s.st b).result ∧
    ((purge a s).st b).supOperand = (s.st b).supOperand ∧
    ((purge a s).st b).staging = (s.st b).staging ∧
    ((purge a s).st b).sendTag = (s.st b).sendTag ∧
    ((purge a s).st b).sendResult = (s.st b).sendResult ∧
    ((purge a s).st b).limits = (s.st b).limits ∧
    ((purge a s).st b).ring = (s.st b).ring ∧
    ((purge a s).st b).enables = (s.st b).enables ∧
    ((purge a s).st b).disarm = (s.st b).disarm ∧
    ((purge a s).st b).levels = (s.st b).levels ∧
    ((purge a s).st b).vectorBase = (s.st b).vectorBase ∧
    ((purge a s).st b).inService = (s.st b).inService := by
  by_cases h : b = a
  · subst h; simp [purge]
  · simp [purge, h]

@[simp] theorem enterOffline_frame (a : StationId) (s : State) :
    (enterOffline a s).supervisor = s.supervisor ∧
    (enterOffline a s).cellStore = s.cellStore ∧
    (enterOffline a s).engine = s.engine ∧
    (enterOffline a s).gap = s.gap ∧
    (enterOffline a s).rrPointer = s.rrPointer ∧
    (enterOffline a s).burst = s.burst ∧
    (enterOffline a s).responseLimit = s.responseLimit ∧
    (enterOffline a s).retryBudget = s.retryBudget ∧
    (enterOffline a s).burstLimit = s.burstLimit ∧
    (enterOffline a s).tickDiv = s.tickDiv ∧
    (enterOffline a s).tickCount = s.tickCount ∧
    (enterOffline a s).answer = s.answer ∧
    (enterOffline a s).pending = s.pending := by simp [enterOffline]

@[simp] theorem enterOffline_stations (a : StationId) (s : State) (b : StationId) :
    ((enterOffline a s).st b).seqCounter = (s.st b).seqCounter ∧
    ((enterOffline a s).st b).roomWaitLimit = (s.st b).roomWaitLimit ∧
    ((enterOffline a s).st b).lockWaitLimit = (s.st b).lockWaitLimit ∧
    ((enterOffline a s).st b).result = (s.st b).result ∧
    ((enterOffline a s).st b).supOperand = (s.st b).supOperand ∧
    ((enterOffline a s).st b).staging = (s.st b).staging ∧
    ((enterOffline a s).st b).sendTag = (s.st b).sendTag ∧
    ((enterOffline a s).st b).sendResult = (s.st b).sendResult ∧
    ((enterOffline a s).st b).limits = (s.st b).limits ∧
    ((enterOffline a s).st b).enables = (s.st b).enables ∧
    ((enterOffline a s).st b).disarm = (s.st b).disarm ∧
    ((enterOffline a s).st b).levels = (s.st b).levels ∧
    ((enterOffline a s).st b).vectorBase = (s.st b).vectorBase ∧
    ((enterOffline a s).st b).inService = (s.st b).inService := by
  by_cases h : b = a
  · subst h; simp [enterOffline]
  · simp [enterOffline, h]

@[simp] theorem quiesce_frame (a : StationId) (s : State) :
    (quiesce a s).supervisor = s.supervisor ∧
    (quiesce a s).cellStore = s.cellStore ∧
    (quiesce a s).engine = s.engine ∧
    (quiesce a s).gap = s.gap ∧
    (quiesce a s).rrPointer = s.rrPointer ∧
    (quiesce a s).burst = s.burst ∧
    (quiesce a s).responseLimit = s.responseLimit ∧
    (quiesce a s).retryBudget = s.retryBudget ∧
    (quiesce a s).burstLimit = s.burstLimit ∧
    (quiesce a s).tickDiv = s.tickDiv ∧
    (quiesce a s).tickCount = s.tickCount ∧
    (quiesce a s).answer = s.answer ∧
    (quiesce a s).pending = s.pending := by
  unfold quiesce; split <;> simp

@[simp] theorem quiesce_stations (a : StationId) (s : State) (b : StationId) :
    ((quiesce a s).st b).seqCounter = (s.st b).seqCounter ∧
    ((quiesce a s).st b).roomWaitLimit = (s.st b).roomWaitLimit ∧
    ((quiesce a s).st b).lockWaitLimit = (s.st b).lockWaitLimit ∧
    ((quiesce a s).st b).result = (s.st b).result ∧
    ((quiesce a s).st b).supOperand = (s.st b).supOperand ∧
    ((quiesce a s).st b).staging = (s.st b).staging ∧
    ((quiesce a s).st b).sendTag = (s.st b).sendTag ∧
    ((quiesce a s).st b).sendResult = (s.st b).sendResult ∧
    ((quiesce a s).st b).limits = (s.st b).limits ∧
    ((quiesce a s).st b).enables = (s.st b).enables ∧
    ((quiesce a s).st b).disarm = (s.st b).disarm ∧
    ((quiesce a s).st b).levels = (s.st b).levels ∧
    ((quiesce a s).st b).vectorBase = (s.st b).vectorBase ∧
    ((quiesce a s).st b).inService = (s.st b).inService := by
  unfold quiesce; split <;> simp

@[simp] theorem enterQuiescing_frame (a : StationId) (s : State) :
    (enterQuiescing a s).supervisor = s.supervisor ∧
    (enterQuiescing a s).cellStore = s.cellStore ∧
    (enterQuiescing a s).burst = s.burst ∧
    (enterQuiescing a s).responseLimit = s.responseLimit ∧
    (enterQuiescing a s).retryBudget = s.retryBudget ∧
    (enterQuiescing a s).burstLimit = s.burstLimit ∧
    (enterQuiescing a s).tickDiv = s.tickDiv ∧
    (enterQuiescing a s).tickCount = s.tickCount ∧
    (enterQuiescing a s).answer = s.answer ∧
    (enterQuiescing a s).pending = s.pending := by
  simp [enterQuiescing]

@[simp] theorem enterQuiescing_stations (a : StationId) (s : State) (b : StationId) :
    ((enterQuiescing a s).st b).seqCounter = (s.st b).seqCounter ∧
    ((enterQuiescing a s).st b).roomWaitLimit = (s.st b).roomWaitLimit ∧
    ((enterQuiescing a s).st b).lockWaitLimit = (s.st b).lockWaitLimit ∧
    ((enterQuiescing a s).st b).result = (s.st b).result ∧
    ((enterQuiescing a s).st b).supOperand = (s.st b).supOperand ∧
    ((enterQuiescing a s).st b).staging = (s.st b).staging ∧
    ((enterQuiescing a s).st b).sendTag = (s.st b).sendTag ∧
    ((enterQuiescing a s).st b).limits = (s.st b).limits ∧
    ((enterQuiescing a s).st b).enables = (s.st b).enables ∧
    ((enterQuiescing a s).st b).disarm = (s.st b).disarm ∧
    ((enterQuiescing a s).st b).levels = (s.st b).levels ∧
    ((enterQuiescing a s).st b).vectorBase = (s.st b).vectorBase := by
  by_cases h : b = a
  · subst h; simp [enterQuiescing, StationRec.silence]
  · simp [enterQuiescing, h]

@[simp] theorem advanceRing_frame (d : Delivery) (s : State) :
    (advanceRing d s).supervisor = s.supervisor ∧
    (advanceRing d s).channels = s.channels ∧
    (advanceRing d s).locks = s.locks ∧
    (advanceRing d s).freeCells = s.freeCells ∧
    (advanceRing d s).freeDescs = s.freeDescs ∧
    (advanceRing d s).messages = s.messages ∧
    (advanceRing d s).cellStore = s.cellStore ∧
    (advanceRing d s).roomQueue = s.roomQueue ∧
    (advanceRing d s).engine = s.engine ∧
    (advanceRing d s).gap = s.gap ∧
    (advanceRing d s).rrPointer = s.rrPointer ∧
    (advanceRing d s).burst = s.burst ∧
    (advanceRing d s).responseLimit = s.responseLimit ∧
    (advanceRing d s).retryBudget = s.retryBudget ∧
    (advanceRing d s).burstLimit = s.burstLimit ∧
    (advanceRing d s).tickDiv = s.tickDiv ∧
    (advanceRing d s).tickCount = s.tickCount ∧
    (advanceRing d s).answer = s.answer ∧
    (advanceRing d s).pending = s.pending := by simp [advanceRing]

@[simp] theorem advanceRing_reads (d : Delivery) (s : State) :
    (∀ c', (advanceRing d s).chan c' = s.chan c') ∧ (∀ l', (advanceRing d s).lock l' = s.lock l') ∧ (∀ d', (advanceRing d s).msg d' = s.msg d') := by
  simp [State.chan, State.lock, State.msg]

@[simp] theorem advanceRing_stations (d : Delivery) (s : State) (b : StationId) :
    ((advanceRing d s).st b).state = (s.st b).state ∧
    ((advanceRing d s).st b).seqCounter = (s.st b).seqCounter ∧
    ((advanceRing d s).st b).roomWaitLimit = (s.st b).roomWaitLimit ∧
    ((advanceRing d s).st b).lockWaitLimit = (s.st b).lockWaitLimit ∧
    ((advanceRing d s).st b).result = (s.st b).result ∧
    ((advanceRing d s).st b).supOperand = (s.st b).supOperand ∧
    ((advanceRing d s).st b).staging = (s.st b).staging ∧
    ((advanceRing d s).st b).sendTag = (s.st b).sendTag ∧
    ((advanceRing d s).st b).send = (s.st b).send ∧
    ((advanceRing d s).st b).sendResult = (s.st b).sendResult ∧
    ((advanceRing d s).st b).limits = (s.st b).limits ∧
    ((advanceRing d s).st b).readSlot = (s.st b).readSlot ∧
    ((advanceRing d s).st b).confirms = (s.st b).confirms ∧
    ((advanceRing d s).st b).confirmOverflow = (s.st b).confirmOverflow ∧
    ((advanceRing d s).st b).wait = (s.st b).wait ∧
    ((advanceRing d s).st b).lastWait = (s.st b).lastWait ∧
    ((advanceRing d s).st b).pendingFlags = (s.st b).pendingFlags ∧
    ((advanceRing d s).st b).enables = (s.st b).enables ∧
    ((advanceRing d s).st b).disarm = (s.st b).disarm ∧
    ((advanceRing d s).st b).levels = (s.st b).levels ∧
    ((advanceRing d s).st b).vectorBase = (s.st b).vectorBase ∧
    ((advanceRing d s).st b).inService = (s.st b).inService ∧
    ((advanceRing d s).st b).fault = (s.st b).fault ∧
    ((advanceRing d s).st b).multiple = (s.st b).multiple := by
  by_cases h : b = d.station
  · subst h; simp [advanceRing, StationRec.setQueue]
  · simp [advanceRing, h]

@[simp] theorem settleRing_frame (a : StationId) (s : State) :
    (settleRing a s).supervisor = s.supervisor ∧
    (settleRing a s).channels = s.channels ∧
    (settleRing a s).locks = s.locks ∧
    (settleRing a s).freeCells = s.freeCells ∧
    (settleRing a s).freeDescs = s.freeDescs ∧
    (settleRing a s).messages = s.messages ∧
    (settleRing a s).cellStore = s.cellStore ∧
    (settleRing a s).roomQueue = s.roomQueue ∧
    (settleRing a s).engine = s.engine ∧
    (settleRing a s).gap = s.gap ∧
    (settleRing a s).rrPointer = s.rrPointer ∧
    (settleRing a s).burst = s.burst ∧
    (settleRing a s).responseLimit = s.responseLimit ∧
    (settleRing a s).retryBudget = s.retryBudget ∧
    (settleRing a s).burstLimit = s.burstLimit ∧
    (settleRing a s).tickDiv = s.tickDiv ∧
    (settleRing a s).tickCount = s.tickCount ∧
    (settleRing a s).answer = s.answer ∧
    (settleRing a s).pending = s.pending := by
  unfold settleRing; split <;> simp

@[simp] theorem settleRing_reads (a : StationId) (s : State) :
    (∀ c', (settleRing a s).chan c' = s.chan c') ∧ (∀ l', (settleRing a s).lock l' = s.lock l') ∧ (∀ d', (settleRing a s).msg d' = s.msg d') := by
  simp [State.chan, State.lock, State.msg]

@[simp] theorem settleRing_stations (a : StationId) (s : State) (b : StationId) :
    ((settleRing a s).st b).state = (s.st b).state ∧
    ((settleRing a s).st b).seqCounter = (s.st b).seqCounter ∧
    ((settleRing a s).st b).roomWaitLimit = (s.st b).roomWaitLimit ∧
    ((settleRing a s).st b).lockWaitLimit = (s.st b).lockWaitLimit ∧
    ((settleRing a s).st b).result = (s.st b).result ∧
    ((settleRing a s).st b).supOperand = (s.st b).supOperand ∧
    ((settleRing a s).st b).staging = (s.st b).staging ∧
    ((settleRing a s).st b).sendTag = (s.st b).sendTag ∧
    ((settleRing a s).st b).send = (s.st b).send ∧
    ((settleRing a s).st b).sendResult = (s.st b).sendResult ∧
    ((settleRing a s).st b).queues = (s.st b).queues ∧
    ((settleRing a s).st b).limits = (s.st b).limits ∧
    ((settleRing a s).st b).readSlot = (s.st b).readSlot ∧
    ((settleRing a s).st b).confirms = (s.st b).confirms ∧
    ((settleRing a s).st b).confirmOverflow = (s.st b).confirmOverflow ∧
    ((settleRing a s).st b).wait = (s.st b).wait ∧
    ((settleRing a s).st b).lastWait = (s.st b).lastWait ∧
    ((settleRing a s).st b).enables = (s.st b).enables ∧
    ((settleRing a s).st b).disarm = (s.st b).disarm ∧
    ((settleRing a s).st b).levels = (s.st b).levels ∧
    ((settleRing a s).st b).vectorBase = (s.st b).vectorBase ∧
    ((settleRing a s).st b).inService = (s.st b).inService ∧
    ((settleRing a s).st b).fault = (s.st b).fault ∧
    ((settleRing a s).st b).multiple = (s.st b).multiple := by
  unfold settleRing; split
  · by_cases h : b = a
    · subst h; simp
    · simp [h]
  · simp
  · simp

@[simp] theorem continueBurst_frame  (s : State) :
    (continueBurst s).stations = s.stations ∧
    (continueBurst s).supervisor = s.supervisor ∧
    (continueBurst s).channels = s.channels ∧
    (continueBurst s).locks = s.locks ∧
    (continueBurst s).freeCells = s.freeCells ∧
    (continueBurst s).freeDescs = s.freeDescs ∧
    (continueBurst s).cellStore = s.cellStore ∧
    (continueBurst s).roomQueue = s.roomQueue ∧
    (continueBurst s).burst = s.burst ∧
    (continueBurst s).responseLimit = s.responseLimit ∧
    (continueBurst s).retryBudget = s.retryBudget ∧
    (continueBurst s).burstLimit = s.burstLimit ∧
    (continueBurst s).tickDiv = s.tickDiv ∧
    (continueBurst s).tickCount = s.tickCount ∧
    (continueBurst s).answer = s.answer ∧
    (continueBurst s).pending = s.pending := by
  unfold continueBurst; split <;> simp

@[simp] theorem continueBurst_reads  (s : State) :
    (∀ b', (continueBurst s).st b' = s.st b') ∧ (∀ c', (continueBurst s).chan c' = s.chan c') ∧ (∀ l', (continueBurst s).lock l' = s.lock l') := by
  simp [State.st, State.chan, State.lock]

@[simp] theorem continueBurst_stations  (s : State) (b : StationId) :
    ((continueBurst s).st b).state = (s.st b).state ∧
    ((continueBurst s).st b).seqCounter = (s.st b).seqCounter ∧
    ((continueBurst s).st b).roomWaitLimit = (s.st b).roomWaitLimit ∧
    ((continueBurst s).st b).lockWaitLimit = (s.st b).lockWaitLimit ∧
    ((continueBurst s).st b).result = (s.st b).result ∧
    ((continueBurst s).st b).supOperand = (s.st b).supOperand ∧
    ((continueBurst s).st b).staging = (s.st b).staging ∧
    ((continueBurst s).st b).sendTag = (s.st b).sendTag ∧
    ((continueBurst s).st b).send = (s.st b).send ∧
    ((continueBurst s).st b).sendResult = (s.st b).sendResult ∧
    ((continueBurst s).st b).queues = (s.st b).queues ∧
    ((continueBurst s).st b).limits = (s.st b).limits ∧
    ((continueBurst s).st b).readSlot = (s.st b).readSlot ∧
    ((continueBurst s).st b).confirms = (s.st b).confirms ∧
    ((continueBurst s).st b).confirmOverflow = (s.st b).confirmOverflow ∧
    ((continueBurst s).st b).wait = (s.st b).wait ∧
    ((continueBurst s).st b).lastWait = (s.st b).lastWait ∧
    ((continueBurst s).st b).ring = (s.st b).ring ∧
    ((continueBurst s).st b).pendingFlags = (s.st b).pendingFlags ∧
    ((continueBurst s).st b).enables = (s.st b).enables ∧
    ((continueBurst s).st b).disarm = (s.st b).disarm ∧
    ((continueBurst s).st b).levels = (s.st b).levels ∧
    ((continueBurst s).st b).vectorBase = (s.st b).vectorBase ∧
    ((continueBurst s).st b).inService = (s.st b).inService ∧
    ((continueBurst s).st b).fault = (s.st b).fault ∧
    ((continueBurst s).st b).multiple = (s.st b).multiple := by
  unfold continueBurst; split <;> simp

@[simp] theorem advanceBurst_frame  (s : State) :
    (advanceBurst s).stations = s.stations ∧
    (advanceBurst s).supervisor = s.supervisor ∧
    (advanceBurst s).channels = s.channels ∧
    (advanceBurst s).locks = s.locks ∧
    (advanceBurst s).freeCells = s.freeCells ∧
    (advanceBurst s).freeDescs = s.freeDescs ∧
    (advanceBurst s).cellStore = s.cellStore ∧
    (advanceBurst s).roomQueue = s.roomQueue ∧
    (advanceBurst s).responseLimit = s.responseLimit ∧
    (advanceBurst s).retryBudget = s.retryBudget ∧
    (advanceBurst s).burstLimit = s.burstLimit ∧
    (advanceBurst s).tickDiv = s.tickDiv ∧
    (advanceBurst s).tickCount = s.tickCount ∧
    (advanceBurst s).answer = s.answer ∧
    (advanceBurst s).pending = s.pending := by
  unfold advanceBurst; split <;> simp

@[simp] theorem advanceBurst_reads  (s : State) :
    (∀ b', (advanceBurst s).st b' = s.st b') ∧ (∀ c', (advanceBurst s).chan c' = s.chan c') ∧ (∀ l', (advanceBurst s).lock l' = s.lock l') := by
  simp [State.st, State.chan, State.lock]

@[simp] theorem advanceBurst_stations  (s : State) (b : StationId) :
    ((advanceBurst s).st b).state = (s.st b).state ∧
    ((advanceBurst s).st b).seqCounter = (s.st b).seqCounter ∧
    ((advanceBurst s).st b).roomWaitLimit = (s.st b).roomWaitLimit ∧
    ((advanceBurst s).st b).lockWaitLimit = (s.st b).lockWaitLimit ∧
    ((advanceBurst s).st b).result = (s.st b).result ∧
    ((advanceBurst s).st b).supOperand = (s.st b).supOperand ∧
    ((advanceBurst s).st b).staging = (s.st b).staging ∧
    ((advanceBurst s).st b).sendTag = (s.st b).sendTag ∧
    ((advanceBurst s).st b).send = (s.st b).send ∧
    ((advanceBurst s).st b).sendResult = (s.st b).sendResult ∧
    ((advanceBurst s).st b).queues = (s.st b).queues ∧
    ((advanceBurst s).st b).limits = (s.st b).limits ∧
    ((advanceBurst s).st b).readSlot = (s.st b).readSlot ∧
    ((advanceBurst s).st b).confirms = (s.st b).confirms ∧
    ((advanceBurst s).st b).confirmOverflow = (s.st b).confirmOverflow ∧
    ((advanceBurst s).st b).wait = (s.st b).wait ∧
    ((advanceBurst s).st b).lastWait = (s.st b).lastWait ∧
    ((advanceBurst s).st b).ring = (s.st b).ring ∧
    ((advanceBurst s).st b).pendingFlags = (s.st b).pendingFlags ∧
    ((advanceBurst s).st b).enables = (s.st b).enables ∧
    ((advanceBurst s).st b).disarm = (s.st b).disarm ∧
    ((advanceBurst s).st b).levels = (s.st b).levels ∧
    ((advanceBurst s).st b).vectorBase = (s.st b).vectorBase ∧
    ((advanceBurst s).st b).inService = (s.st b).inService ∧
    ((advanceBurst s).st b).fault = (s.st b).fault ∧
    ((advanceBurst s).st b).multiple = (s.st b).multiple := by
  unfold advanceBurst; split
  · have h := continueBurst_stations { s with burst := s.burst + 1 } b
    exact h
  · have h := releaseToIdle_stations { s with burst := s.burst + 1 } b
    exact h

@[simp] theorem completeDelivery_frame (d : Delivery) (s : State) :
    (completeDelivery d s).supervisor = s.supervisor ∧
    (completeDelivery d s).cellStore = s.cellStore ∧
    (completeDelivery d s).responseLimit = s.responseLimit ∧
    (completeDelivery d s).retryBudget = s.retryBudget ∧
    (completeDelivery d s).burstLimit = s.burstLimit ∧
    (completeDelivery d s).tickDiv = s.tickDiv ∧
    (completeDelivery d s).tickCount = s.tickCount ∧
    (completeDelivery d s).answer = s.answer ∧
    (completeDelivery d s).pending = s.pending := by simp [completeDelivery]

@[simp] theorem completeDelivery_stations (d : Delivery) (s : State) (b : StationId) :
    ((completeDelivery d s).st b).state = (s.st b).state ∧
    ((completeDelivery d s).st b).seqCounter = (s.st b).seqCounter ∧
    ((completeDelivery d s).st b).roomWaitLimit = (s.st b).roomWaitLimit ∧
    ((completeDelivery d s).st b).lockWaitLimit = (s.st b).lockWaitLimit ∧
    ((completeDelivery d s).st b).result = (s.st b).result ∧
    ((completeDelivery d s).st b).supOperand = (s.st b).supOperand ∧
    ((completeDelivery d s).st b).staging = (s.st b).staging ∧
    ((completeDelivery d s).st b).sendTag = (s.st b).sendTag ∧
    ((completeDelivery d s).st b).sendResult = (s.st b).sendResult ∧
    ((completeDelivery d s).st b).limits = (s.st b).limits ∧
    ((completeDelivery d s).st b).readSlot = (s.st b).readSlot ∧
    ((completeDelivery d s).st b).enables = (s.st b).enables ∧
    ((completeDelivery d s).st b).disarm = (s.st b).disarm ∧
    ((completeDelivery d s).st b).levels = (s.st b).levels ∧
    ((completeDelivery d s).st b).vectorBase = (s.st b).vectorBase ∧
    ((completeDelivery d s).st b).inService = (s.st b).inService := by simp [completeDelivery]

@[simp] theorem acceptPost_frame (a : StationId) (p : Post) (s : State) :
    (acceptPost a p s).supervisor = s.supervisor ∧
    (acceptPost a p s).freeCells = s.freeCells ∧
    (acceptPost a p s).freeDescs = s.freeDescs ∧
    (acceptPost a p s).messages = s.messages ∧
    (acceptPost a p s).cellStore = s.cellStore ∧
    (acceptPost a p s).roomQueue = s.roomQueue ∧
    (acceptPost a p s).engine = s.engine ∧
    (acceptPost a p s).gap = s.gap ∧
    (acceptPost a p s).rrPointer = s.rrPointer ∧
    (acceptPost a p s).burst = s.burst ∧
    (acceptPost a p s).responseLimit = s.responseLimit ∧
    (acceptPost a p s).retryBudget = s.retryBudget ∧
    (acceptPost a p s).burstLimit = s.burstLimit ∧
    (acceptPost a p s).tickDiv = s.tickDiv ∧
    (acceptPost a p s).tickCount = s.tickCount ∧
    (acceptPost a p s).answer = s.answer ∧
    (acceptPost a p s).pending = s.pending := by simp [acceptPost]

@[simp] theorem acceptPost_reads (a : StationId) (p : Post) (s : State) :
    (∀ d', (acceptPost a p s).msg d' = s.msg d') := by
  simp [State.msg]

@[simp] theorem acceptPost_stations (a : StationId) (p : Post) (s : State) (b : StationId) :
    ((acceptPost a p s).st b).state = (s.st b).state ∧
    ((acceptPost a p s).st b).roomWaitLimit = (s.st b).roomWaitLimit ∧
    ((acceptPost a p s).st b).lockWaitLimit = (s.st b).lockWaitLimit ∧
    ((acceptPost a p s).st b).result = (s.st b).result ∧
    ((acceptPost a p s).st b).supOperand = (s.st b).supOperand ∧
    ((acceptPost a p s).st b).staging = (s.st b).staging ∧
    ((acceptPost a p s).st b).sendTag = (s.st b).sendTag ∧
    ((acceptPost a p s).st b).send = (s.st b).send ∧
    ((acceptPost a p s).st b).queues = (s.st b).queues ∧
    ((acceptPost a p s).st b).limits = (s.st b).limits ∧
    ((acceptPost a p s).st b).readSlot = (s.st b).readSlot ∧
    ((acceptPost a p s).st b).confirms = (s.st b).confirms ∧
    ((acceptPost a p s).st b).confirmOverflow = (s.st b).confirmOverflow ∧
    ((acceptPost a p s).st b).wait = (s.st b).wait ∧
    ((acceptPost a p s).st b).lastWait = (s.st b).lastWait ∧
    ((acceptPost a p s).st b).ring = (s.st b).ring ∧
    ((acceptPost a p s).st b).pendingFlags = (s.st b).pendingFlags ∧
    ((acceptPost a p s).st b).enables = (s.st b).enables ∧
    ((acceptPost a p s).st b).disarm = (s.st b).disarm ∧
    ((acceptPost a p s).st b).levels = (s.st b).levels ∧
    ((acceptPost a p s).st b).vectorBase = (s.st b).vectorBase ∧
    ((acceptPost a p s).st b).inService = (s.st b).inService ∧
    ((acceptPost a p s).st b).fault = (s.st b).fault ∧
    ((acceptPost a p s).st b).multiple = (s.st b).multiple := by
  by_cases h : b = a
  · subst h; simp [acceptPost]
  · simp [acceptPost, h]

@[simp] theorem joinRoomQueue_frame (a : StationId) (p : Post) (s : State) :
    (joinRoomQueue a p s).supervisor = s.supervisor ∧
    (joinRoomQueue a p s).channels = s.channels ∧
    (joinRoomQueue a p s).locks = s.locks ∧
    (joinRoomQueue a p s).freeCells = s.freeCells ∧
    (joinRoomQueue a p s).freeDescs = s.freeDescs ∧
    (joinRoomQueue a p s).messages = s.messages ∧
    (joinRoomQueue a p s).cellStore = s.cellStore ∧
    (joinRoomQueue a p s).engine = s.engine ∧
    (joinRoomQueue a p s).gap = s.gap ∧
    (joinRoomQueue a p s).rrPointer = s.rrPointer ∧
    (joinRoomQueue a p s).burst = s.burst ∧
    (joinRoomQueue a p s).responseLimit = s.responseLimit ∧
    (joinRoomQueue a p s).retryBudget = s.retryBudget ∧
    (joinRoomQueue a p s).burstLimit = s.burstLimit ∧
    (joinRoomQueue a p s).tickDiv = s.tickDiv ∧
    (joinRoomQueue a p s).tickCount = s.tickCount ∧
    (joinRoomQueue a p s).answer = s.answer ∧
    (joinRoomQueue a p s).pending = s.pending := by simp [joinRoomQueue]

@[simp] theorem joinRoomQueue_reads (a : StationId) (p : Post) (s : State) :
    (∀ c', (joinRoomQueue a p s).chan c' = s.chan c') ∧ (∀ l', (joinRoomQueue a p s).lock l' = s.lock l') ∧ (∀ d', (joinRoomQueue a p s).msg d' = s.msg d') := by
  simp [State.chan, State.lock, State.msg]

@[simp] theorem joinRoomQueue_stations (a : StationId) (p : Post) (s : State) (b : StationId) :
    ((joinRoomQueue a p s).st b).state = (s.st b).state ∧
    ((joinRoomQueue a p s).st b).seqCounter = (s.st b).seqCounter ∧
    ((joinRoomQueue a p s).st b).roomWaitLimit = (s.st b).roomWaitLimit ∧
    ((joinRoomQueue a p s).st b).lockWaitLimit = (s.st b).lockWaitLimit ∧
    ((joinRoomQueue a p s).st b).result = (s.st b).result ∧
    ((joinRoomQueue a p s).st b).supOperand = (s.st b).supOperand ∧
    ((joinRoomQueue a p s).st b).staging = (s.st b).staging ∧
    ((joinRoomQueue a p s).st b).sendTag = (s.st b).sendTag ∧
    ((joinRoomQueue a p s).st b).sendResult = (s.st b).sendResult ∧
    ((joinRoomQueue a p s).st b).queues = (s.st b).queues ∧
    ((joinRoomQueue a p s).st b).limits = (s.st b).limits ∧
    ((joinRoomQueue a p s).st b).readSlot = (s.st b).readSlot ∧
    ((joinRoomQueue a p s).st b).confirms = (s.st b).confirms ∧
    ((joinRoomQueue a p s).st b).confirmOverflow = (s.st b).confirmOverflow ∧
    ((joinRoomQueue a p s).st b).wait = (s.st b).wait ∧
    ((joinRoomQueue a p s).st b).lastWait = (s.st b).lastWait ∧
    ((joinRoomQueue a p s).st b).ring = (s.st b).ring ∧
    ((joinRoomQueue a p s).st b).pendingFlags = (s.st b).pendingFlags ∧
    ((joinRoomQueue a p s).st b).enables = (s.st b).enables ∧
    ((joinRoomQueue a p s).st b).disarm = (s.st b).disarm ∧
    ((joinRoomQueue a p s).st b).levels = (s.st b).levels ∧
    ((joinRoomQueue a p s).st b).vectorBase = (s.st b).vectorBase ∧
    ((joinRoomQueue a p s).st b).inService = (s.st b).inService ∧
    ((joinRoomQueue a p s).st b).fault = (s.st b).fault ∧
    ((joinRoomQueue a p s).st b).multiple = (s.st b).multiple := by
  by_cases h : b = a
  · subst h; simp [joinRoomQueue]
  · simp [joinRoomQueue, h]

@[simp] theorem attemptEnqueue_frame (a : StationId) (p : Post) (d : DescId) (m : Message) (s : State) :
    (attemptEnqueue a p d m s).supervisor = s.supervisor ∧
    (attemptEnqueue a p d m s).cellStore = s.cellStore ∧
    (attemptEnqueue a p d m s).engine = s.engine ∧
    (attemptEnqueue a p d m s).gap = s.gap ∧
    (attemptEnqueue a p d m s).rrPointer = s.rrPointer ∧
    (attemptEnqueue a p d m s).burst = s.burst ∧
    (attemptEnqueue a p d m s).responseLimit = s.responseLimit ∧
    (attemptEnqueue a p d m s).retryBudget = s.retryBudget ∧
    (attemptEnqueue a p d m s).burstLimit = s.burstLimit ∧
    (attemptEnqueue a p d m s).tickDiv = s.tickDiv ∧
    (attemptEnqueue a p d m s).tickCount = s.tickCount ∧
    (attemptEnqueue a p d m s).answer = s.answer ∧
    (attemptEnqueue a p d m s).pending = s.pending := by
  unfold attemptEnqueue; split <;> simp

@[simp] theorem attemptEnqueue_stations (a : StationId) (p : Post) (d : DescId) (m : Message) (s : State) (b : StationId) :
    ((attemptEnqueue a p d m s).st b).state = (s.st b).state ∧
    ((attemptEnqueue a p d m s).st b).seqCounter = (s.st b).seqCounter ∧
    ((attemptEnqueue a p d m s).st b).roomWaitLimit = (s.st b).roomWaitLimit ∧
    ((attemptEnqueue a p d m s).st b).lockWaitLimit = (s.st b).lockWaitLimit ∧
    ((attemptEnqueue a p d m s).st b).result = (s.st b).result ∧
    ((attemptEnqueue a p d m s).st b).supOperand = (s.st b).supOperand ∧
    ((attemptEnqueue a p d m s).st b).staging = (s.st b).staging ∧
    ((attemptEnqueue a p d m s).st b).sendTag = (s.st b).sendTag ∧
    ((attemptEnqueue a p d m s).st b).limits = (s.st b).limits ∧
    ((attemptEnqueue a p d m s).st b).readSlot = (s.st b).readSlot ∧
    ((attemptEnqueue a p d m s).st b).confirms = (s.st b).confirms ∧
    ((attemptEnqueue a p d m s).st b).confirmOverflow = (s.st b).confirmOverflow ∧
    ((attemptEnqueue a p d m s).st b).wait = (s.st b).wait ∧
    ((attemptEnqueue a p d m s).st b).lastWait = (s.st b).lastWait ∧
    ((attemptEnqueue a p d m s).st b).ring = (s.st b).ring ∧
    ((attemptEnqueue a p d m s).st b).enables = (s.st b).enables ∧
    ((attemptEnqueue a p d m s).st b).disarm = (s.st b).disarm ∧
    ((attemptEnqueue a p d m s).st b).levels = (s.st b).levels ∧
    ((attemptEnqueue a p d m s).st b).vectorBase = (s.st b).vectorBase ∧
    ((attemptEnqueue a p d m s).st b).inService = (s.st b).inService ∧
    ((attemptEnqueue a p d m s).st b).fault = (s.st b).fault ∧
    ((attemptEnqueue a p d m s).st b).multiple = (s.st b).multiple := by
  unfold attemptEnqueue; split <;> simp

@[simp] theorem takeLock_frame (a : StationId) (l : LockId) (s : State) :
    (takeLock a l s).stations = s.stations ∧
    (takeLock a l s).supervisor = s.supervisor ∧
    (takeLock a l s).channels = s.channels ∧
    (takeLock a l s).freeCells = s.freeCells ∧
    (takeLock a l s).freeDescs = s.freeDescs ∧
    (takeLock a l s).messages = s.messages ∧
    (takeLock a l s).cellStore = s.cellStore ∧
    (takeLock a l s).roomQueue = s.roomQueue ∧
    (takeLock a l s).engine = s.engine ∧
    (takeLock a l s).gap = s.gap ∧
    (takeLock a l s).rrPointer = s.rrPointer ∧
    (takeLock a l s).burst = s.burst ∧
    (takeLock a l s).responseLimit = s.responseLimit ∧
    (takeLock a l s).retryBudget = s.retryBudget ∧
    (takeLock a l s).burstLimit = s.burstLimit ∧
    (takeLock a l s).tickDiv = s.tickDiv ∧
    (takeLock a l s).tickCount = s.tickCount ∧
    (takeLock a l s).answer = s.answer ∧
    (takeLock a l s).pending = s.pending := by simp [takeLock]

@[simp] theorem takeLock_reads (a : StationId) (l : LockId) (s : State) :
    (∀ b', (takeLock a l s).st b' = s.st b') ∧ (∀ c', (takeLock a l s).chan c' = s.chan c') ∧ (∀ d', (takeLock a l s).msg d' = s.msg d') := by
  simp [State.st, State.chan, State.msg]

@[simp] theorem takeLock_stations (a : StationId) (l : LockId) (s : State) (b : StationId) :
    ((takeLock a l s).st b).state = (s.st b).state ∧
    ((takeLock a l s).st b).seqCounter = (s.st b).seqCounter ∧
    ((takeLock a l s).st b).roomWaitLimit = (s.st b).roomWaitLimit ∧
    ((takeLock a l s).st b).lockWaitLimit = (s.st b).lockWaitLimit ∧
    ((takeLock a l s).st b).result = (s.st b).result ∧
    ((takeLock a l s).st b).supOperand = (s.st b).supOperand ∧
    ((takeLock a l s).st b).staging = (s.st b).staging ∧
    ((takeLock a l s).st b).sendTag = (s.st b).sendTag ∧
    ((takeLock a l s).st b).send = (s.st b).send ∧
    ((takeLock a l s).st b).sendResult = (s.st b).sendResult ∧
    ((takeLock a l s).st b).queues = (s.st b).queues ∧
    ((takeLock a l s).st b).limits = (s.st b).limits ∧
    ((takeLock a l s).st b).readSlot = (s.st b).readSlot ∧
    ((takeLock a l s).st b).confirms = (s.st b).confirms ∧
    ((takeLock a l s).st b).confirmOverflow = (s.st b).confirmOverflow ∧
    ((takeLock a l s).st b).wait = (s.st b).wait ∧
    ((takeLock a l s).st b).lastWait = (s.st b).lastWait ∧
    ((takeLock a l s).st b).ring = (s.st b).ring ∧
    ((takeLock a l s).st b).pendingFlags = (s.st b).pendingFlags ∧
    ((takeLock a l s).st b).enables = (s.st b).enables ∧
    ((takeLock a l s).st b).disarm = (s.st b).disarm ∧
    ((takeLock a l s).st b).levels = (s.st b).levels ∧
    ((takeLock a l s).st b).vectorBase = (s.st b).vectorBase ∧
    ((takeLock a l s).st b).inService = (s.st b).inService ∧
    ((takeLock a l s).st b).fault = (s.st b).fault ∧
    ((takeLock a l s).st b).multiple = (s.st b).multiple := by simp [takeLock]

@[simp] theorem joinWaiters_frame (a : StationId) (l : LockId) (s : State) :
    (joinWaiters a l s).supervisor = s.supervisor ∧
    (joinWaiters a l s).channels = s.channels ∧
    (joinWaiters a l s).freeCells = s.freeCells ∧
    (joinWaiters a l s).freeDescs = s.freeDescs ∧
    (joinWaiters a l s).messages = s.messages ∧
    (joinWaiters a l s).cellStore = s.cellStore ∧
    (joinWaiters a l s).roomQueue = s.roomQueue ∧
    (joinWaiters a l s).engine = s.engine ∧
    (joinWaiters a l s).gap = s.gap ∧
    (joinWaiters a l s).rrPointer = s.rrPointer ∧
    (joinWaiters a l s).burst = s.burst ∧
    (joinWaiters a l s).responseLimit = s.responseLimit ∧
    (joinWaiters a l s).retryBudget = s.retryBudget ∧
    (joinWaiters a l s).burstLimit = s.burstLimit ∧
    (joinWaiters a l s).tickDiv = s.tickDiv ∧
    (joinWaiters a l s).tickCount = s.tickCount ∧
    (joinWaiters a l s).answer = s.answer ∧
    (joinWaiters a l s).pending = s.pending := by simp [joinWaiters]

@[simp] theorem joinWaiters_reads (a : StationId) (l : LockId) (s : State) :
    (∀ c', (joinWaiters a l s).chan c' = s.chan c') ∧ (∀ d', (joinWaiters a l s).msg d' = s.msg d') := by
  simp [State.chan, State.msg]

@[simp] theorem joinWaiters_stations (a : StationId) (l : LockId) (s : State) (b : StationId) :
    ((joinWaiters a l s).st b).state = (s.st b).state ∧
    ((joinWaiters a l s).st b).seqCounter = (s.st b).seqCounter ∧
    ((joinWaiters a l s).st b).roomWaitLimit = (s.st b).roomWaitLimit ∧
    ((joinWaiters a l s).st b).lockWaitLimit = (s.st b).lockWaitLimit ∧
    ((joinWaiters a l s).st b).result = (s.st b).result ∧
    ((joinWaiters a l s).st b).supOperand = (s.st b).supOperand ∧
    ((joinWaiters a l s).st b).staging = (s.st b).staging ∧
    ((joinWaiters a l s).st b).sendTag = (s.st b).sendTag ∧
    ((joinWaiters a l s).st b).send = (s.st b).send ∧
    ((joinWaiters a l s).st b).sendResult = (s.st b).sendResult ∧
    ((joinWaiters a l s).st b).queues = (s.st b).queues ∧
    ((joinWaiters a l s).st b).limits = (s.st b).limits ∧
    ((joinWaiters a l s).st b).readSlot = (s.st b).readSlot ∧
    ((joinWaiters a l s).st b).confirms = (s.st b).confirms ∧
    ((joinWaiters a l s).st b).confirmOverflow = (s.st b).confirmOverflow ∧
    ((joinWaiters a l s).st b).ring = (s.st b).ring ∧
    ((joinWaiters a l s).st b).pendingFlags = (s.st b).pendingFlags ∧
    ((joinWaiters a l s).st b).enables = (s.st b).enables ∧
    ((joinWaiters a l s).st b).disarm = (s.st b).disarm ∧
    ((joinWaiters a l s).st b).levels = (s.st b).levels ∧
    ((joinWaiters a l s).st b).vectorBase = (s.st b).vectorBase ∧
    ((joinWaiters a l s).st b).inService = (s.st b).inService ∧
    ((joinWaiters a l s).st b).fault = (s.st b).fault ∧
    ((joinWaiters a l s).st b).multiple = (s.st b).multiple := by
  by_cases h : b = a
  · subst h; simp [joinWaiters]
  · simp [joinWaiters, h]

@[simp] theorem expireRoomWait_frame (a : StationId) (s : State) :
    (expireRoomWait a s).supervisor = s.supervisor ∧
    (expireRoomWait a s).cellStore = s.cellStore ∧
    (expireRoomWait a s).engine = s.engine ∧
    (expireRoomWait a s).gap = s.gap ∧
    (expireRoomWait a s).rrPointer = s.rrPointer ∧
    (expireRoomWait a s).burst = s.burst ∧
    (expireRoomWait a s).responseLimit = s.responseLimit ∧
    (expireRoomWait a s).retryBudget = s.retryBudget ∧
    (expireRoomWait a s).burstLimit = s.burstLimit ∧
    (expireRoomWait a s).tickDiv = s.tickDiv ∧
    (expireRoomWait a s).tickCount = s.tickCount ∧
    (expireRoomWait a s).answer = s.answer ∧
    (expireRoomWait a s).pending = s.pending := by
  unfold expireRoomWait; split <;> simp

@[simp] theorem expireRoomWait_stations (a : StationId) (s : State) (b : StationId) :
    ((expireRoomWait a s).st b).state = (s.st b).state ∧
    ((expireRoomWait a s).st b).seqCounter = (s.st b).seqCounter ∧
    ((expireRoomWait a s).st b).roomWaitLimit = (s.st b).roomWaitLimit ∧
    ((expireRoomWait a s).st b).lockWaitLimit = (s.st b).lockWaitLimit ∧
    ((expireRoomWait a s).st b).result = (s.st b).result ∧
    ((expireRoomWait a s).st b).supOperand = (s.st b).supOperand ∧
    ((expireRoomWait a s).st b).staging = (s.st b).staging ∧
    ((expireRoomWait a s).st b).sendTag = (s.st b).sendTag ∧
    ((expireRoomWait a s).st b).queues = (s.st b).queues ∧
    ((expireRoomWait a s).st b).limits = (s.st b).limits ∧
    ((expireRoomWait a s).st b).readSlot = (s.st b).readSlot ∧
    ((expireRoomWait a s).st b).confirms = (s.st b).confirms ∧
    ((expireRoomWait a s).st b).confirmOverflow = (s.st b).confirmOverflow ∧
    ((expireRoomWait a s).st b).wait = (s.st b).wait ∧
    ((expireRoomWait a s).st b).lastWait = (s.st b).lastWait ∧
    ((expireRoomWait a s).st b).ring = (s.st b).ring ∧
    ((expireRoomWait a s).st b).enables = (s.st b).enables ∧
    ((expireRoomWait a s).st b).disarm = (s.st b).disarm ∧
    ((expireRoomWait a s).st b).levels = (s.st b).levels ∧
    ((expireRoomWait a s).st b).vectorBase = (s.st b).vectorBase ∧
    ((expireRoomWait a s).st b).inService = (s.st b).inService ∧
    ((expireRoomWait a s).st b).fault = (s.st b).fault ∧
    ((expireRoomWait a s).st b).multiple = (s.st b).multiple := by
  unfold expireRoomWait; split <;> simp

@[simp] theorem expireRoomWaits_frame (order : List StationId) (s : State) :
    (expireRoomWaits order s).supervisor = s.supervisor ∧
    (expireRoomWaits order s).cellStore = s.cellStore ∧
    (expireRoomWaits order s).engine = s.engine ∧
    (expireRoomWaits order s).gap = s.gap ∧
    (expireRoomWaits order s).rrPointer = s.rrPointer ∧
    (expireRoomWaits order s).burst = s.burst ∧
    (expireRoomWaits order s).responseLimit = s.responseLimit ∧
    (expireRoomWaits order s).retryBudget = s.retryBudget ∧
    (expireRoomWaits order s).burstLimit = s.burstLimit ∧
    (expireRoomWaits order s).tickDiv = s.tickDiv ∧
    (expireRoomWaits order s).tickCount = s.tickCount ∧
    (expireRoomWaits order s).answer = s.answer ∧
    (expireRoomWaits order s).pending = s.pending := by
  induction order generalizing s with
  | nil => simp [expireRoomWaits]
  | cons a rest ih =>
    unfold expireRoomWaits at ih ⊢
    rw [List.foldl_cons]
    simp [ih]

@[simp] theorem expireRoomWaits_stations (order : List StationId) (s : State) (b : StationId) :
    ((expireRoomWaits order s).st b).state = (s.st b).state ∧
    ((expireRoomWaits order s).st b).seqCounter = (s.st b).seqCounter ∧
    ((expireRoomWaits order s).st b).roomWaitLimit = (s.st b).roomWaitLimit ∧
    ((expireRoomWaits order s).st b).lockWaitLimit = (s.st b).lockWaitLimit ∧
    ((expireRoomWaits order s).st b).result = (s.st b).result ∧
    ((expireRoomWaits order s).st b).supOperand = (s.st b).supOperand ∧
    ((expireRoomWaits order s).st b).staging = (s.st b).staging ∧
    ((expireRoomWaits order s).st b).sendTag = (s.st b).sendTag ∧
    ((expireRoomWaits order s).st b).queues = (s.st b).queues ∧
    ((expireRoomWaits order s).st b).limits = (s.st b).limits ∧
    ((expireRoomWaits order s).st b).readSlot = (s.st b).readSlot ∧
    ((expireRoomWaits order s).st b).confirms = (s.st b).confirms ∧
    ((expireRoomWaits order s).st b).confirmOverflow = (s.st b).confirmOverflow ∧
    ((expireRoomWaits order s).st b).wait = (s.st b).wait ∧
    ((expireRoomWaits order s).st b).lastWait = (s.st b).lastWait ∧
    ((expireRoomWaits order s).st b).ring = (s.st b).ring ∧
    ((expireRoomWaits order s).st b).enables = (s.st b).enables ∧
    ((expireRoomWaits order s).st b).disarm = (s.st b).disarm ∧
    ((expireRoomWaits order s).st b).levels = (s.st b).levels ∧
    ((expireRoomWaits order s).st b).vectorBase = (s.st b).vectorBase ∧
    ((expireRoomWaits order s).st b).inService = (s.st b).inService ∧
    ((expireRoomWaits order s).st b).fault = (s.st b).fault ∧
    ((expireRoomWaits order s).st b).multiple = (s.st b).multiple := by
  induction order generalizing s with
  | nil => simp [expireRoomWaits]
  | cons a rest ih =>
    unfold expireRoomWaits at ih ⊢
    rw [List.foldl_cons]
    simp [ih]

@[simp] theorem expireLockWait_frame (a : StationId) (s : State) :
    (expireLockWait a s).supervisor = s.supervisor ∧
    (expireLockWait a s).channels = s.channels ∧
    (expireLockWait a s).freeCells = s.freeCells ∧
    (expireLockWait a s).freeDescs = s.freeDescs ∧
    (expireLockWait a s).messages = s.messages ∧
    (expireLockWait a s).cellStore = s.cellStore ∧
    (expireLockWait a s).roomQueue = s.roomQueue ∧
    (expireLockWait a s).engine = s.engine ∧
    (expireLockWait a s).gap = s.gap ∧
    (expireLockWait a s).rrPointer = s.rrPointer ∧
    (expireLockWait a s).burst = s.burst ∧
    (expireLockWait a s).responseLimit = s.responseLimit ∧
    (expireLockWait a s).retryBudget = s.retryBudget ∧
    (expireLockWait a s).burstLimit = s.burstLimit ∧
    (expireLockWait a s).tickDiv = s.tickDiv ∧
    (expireLockWait a s).tickCount = s.tickCount ∧
    (expireLockWait a s).answer = s.answer ∧
    (expireLockWait a s).pending = s.pending := by
  unfold expireLockWait; split <;> simp

@[simp] theorem expireLockWait_reads (a : StationId) (s : State) :
    (∀ c', (expireLockWait a s).chan c' = s.chan c') ∧ (∀ d', (expireLockWait a s).msg d' = s.msg d') := by
  simp [State.chan, State.msg]

@[simp] theorem expireLockWait_stations (a : StationId) (s : State) (b : StationId) :
    ((expireLockWait a s).st b).state = (s.st b).state ∧
    ((expireLockWait a s).st b).seqCounter = (s.st b).seqCounter ∧
    ((expireLockWait a s).st b).roomWaitLimit = (s.st b).roomWaitLimit ∧
    ((expireLockWait a s).st b).lockWaitLimit = (s.st b).lockWaitLimit ∧
    ((expireLockWait a s).st b).result = (s.st b).result ∧
    ((expireLockWait a s).st b).supOperand = (s.st b).supOperand ∧
    ((expireLockWait a s).st b).staging = (s.st b).staging ∧
    ((expireLockWait a s).st b).sendTag = (s.st b).sendTag ∧
    ((expireLockWait a s).st b).send = (s.st b).send ∧
    ((expireLockWait a s).st b).sendResult = (s.st b).sendResult ∧
    ((expireLockWait a s).st b).queues = (s.st b).queues ∧
    ((expireLockWait a s).st b).limits = (s.st b).limits ∧
    ((expireLockWait a s).st b).readSlot = (s.st b).readSlot ∧
    ((expireLockWait a s).st b).confirms = (s.st b).confirms ∧
    ((expireLockWait a s).st b).confirmOverflow = (s.st b).confirmOverflow ∧
    ((expireLockWait a s).st b).ring = (s.st b).ring ∧
    ((expireLockWait a s).st b).enables = (s.st b).enables ∧
    ((expireLockWait a s).st b).disarm = (s.st b).disarm ∧
    ((expireLockWait a s).st b).levels = (s.st b).levels ∧
    ((expireLockWait a s).st b).vectorBase = (s.st b).vectorBase ∧
    ((expireLockWait a s).st b).inService = (s.st b).inService ∧
    ((expireLockWait a s).st b).fault = (s.st b).fault ∧
    ((expireLockWait a s).st b).multiple = (s.st b).multiple := by
  unfold expireLockWait; split <;> simp

@[simp] theorem expireLockWaits_frame (order : List StationId) (s : State) :
    (expireLockWaits order s).supervisor = s.supervisor ∧
    (expireLockWaits order s).channels = s.channels ∧
    (expireLockWaits order s).freeCells = s.freeCells ∧
    (expireLockWaits order s).freeDescs = s.freeDescs ∧
    (expireLockWaits order s).messages = s.messages ∧
    (expireLockWaits order s).cellStore = s.cellStore ∧
    (expireLockWaits order s).roomQueue = s.roomQueue ∧
    (expireLockWaits order s).engine = s.engine ∧
    (expireLockWaits order s).gap = s.gap ∧
    (expireLockWaits order s).rrPointer = s.rrPointer ∧
    (expireLockWaits order s).burst = s.burst ∧
    (expireLockWaits order s).responseLimit = s.responseLimit ∧
    (expireLockWaits order s).retryBudget = s.retryBudget ∧
    (expireLockWaits order s).burstLimit = s.burstLimit ∧
    (expireLockWaits order s).tickDiv = s.tickDiv ∧
    (expireLockWaits order s).tickCount = s.tickCount ∧
    (expireLockWaits order s).answer = s.answer ∧
    (expireLockWaits order s).pending = s.pending := by
  induction order generalizing s with
  | nil => simp [expireLockWaits]
  | cons a rest ih =>
    unfold expireLockWaits at ih ⊢
    rw [List.foldl_cons]
    simp [ih]

@[simp] theorem expireLockWaits_reads (order : List StationId) (s : State) :
    (∀ c', (expireLockWaits order s).chan c' = s.chan c') ∧ (∀ d', (expireLockWaits order s).msg d' = s.msg d') := by
  simp [State.chan, State.msg]

@[simp] theorem expireLockWaits_stations (order : List StationId) (s : State) (b : StationId) :
    ((expireLockWaits order s).st b).state = (s.st b).state ∧
    ((expireLockWaits order s).st b).seqCounter = (s.st b).seqCounter ∧
    ((expireLockWaits order s).st b).roomWaitLimit = (s.st b).roomWaitLimit ∧
    ((expireLockWaits order s).st b).lockWaitLimit = (s.st b).lockWaitLimit ∧
    ((expireLockWaits order s).st b).result = (s.st b).result ∧
    ((expireLockWaits order s).st b).supOperand = (s.st b).supOperand ∧
    ((expireLockWaits order s).st b).staging = (s.st b).staging ∧
    ((expireLockWaits order s).st b).sendTag = (s.st b).sendTag ∧
    ((expireLockWaits order s).st b).send = (s.st b).send ∧
    ((expireLockWaits order s).st b).sendResult = (s.st b).sendResult ∧
    ((expireLockWaits order s).st b).queues = (s.st b).queues ∧
    ((expireLockWaits order s).st b).limits = (s.st b).limits ∧
    ((expireLockWaits order s).st b).readSlot = (s.st b).readSlot ∧
    ((expireLockWaits order s).st b).confirms = (s.st b).confirms ∧
    ((expireLockWaits order s).st b).confirmOverflow = (s.st b).confirmOverflow ∧
    ((expireLockWaits order s).st b).ring = (s.st b).ring ∧
    ((expireLockWaits order s).st b).enables = (s.st b).enables ∧
    ((expireLockWaits order s).st b).disarm = (s.st b).disarm ∧
    ((expireLockWaits order s).st b).levels = (s.st b).levels ∧
    ((expireLockWaits order s).st b).vectorBase = (s.st b).vectorBase ∧
    ((expireLockWaits order s).st b).inService = (s.st b).inService ∧
    ((expireLockWaits order s).st b).fault = (s.st b).fault ∧
    ((expireLockWaits order s).st b).multiple = (s.st b).multiple := by
  induction order generalizing s with
  | nil => simp [expireLockWaits]
  | cons a rest ih =>
    unfold expireLockWaits at ih ⊢
    rw [List.foldl_cons]
    simp [ih]

@[simp] theorem expireResponse_frame  (s : State) :
    (expireResponse s).supervisor = s.supervisor ∧
    (expireResponse s).channels = s.channels ∧
    (expireResponse s).locks = s.locks ∧
    (expireResponse s).freeCells = s.freeCells ∧
    (expireResponse s).freeDescs = s.freeDescs ∧
    (expireResponse s).cellStore = s.cellStore ∧
    (expireResponse s).roomQueue = s.roomQueue ∧
    (expireResponse s).burst = s.burst ∧
    (expireResponse s).responseLimit = s.responseLimit ∧
    (expireResponse s).retryBudget = s.retryBudget ∧
    (expireResponse s).burstLimit = s.burstLimit ∧
    (expireResponse s).tickDiv = s.tickDiv ∧
    (expireResponse s).tickCount = s.tickCount ∧
    (expireResponse s).answer = s.answer ∧
    (expireResponse s).pending = s.pending := by
  unfold expireResponse; split
  · split <;> simp
  · simp

@[simp] theorem expireResponse_reads  (s : State) :
    (∀ c', (expireResponse s).chan c' = s.chan c') ∧ (∀ l', (expireResponse s).lock l' = s.lock l') := by
  simp [State.chan, State.lock]

@[simp] theorem expireResponse_stations  (s : State) (b : StationId) :
    ((expireResponse s).st b).state = (s.st b).state ∧
    ((expireResponse s).st b).seqCounter = (s.st b).seqCounter ∧
    ((expireResponse s).st b).roomWaitLimit = (s.st b).roomWaitLimit ∧
    ((expireResponse s).st b).lockWaitLimit = (s.st b).lockWaitLimit ∧
    ((expireResponse s).st b).result = (s.st b).result ∧
    ((expireResponse s).st b).supOperand = (s.st b).supOperand ∧
    ((expireResponse s).st b).staging = (s.st b).staging ∧
    ((expireResponse s).st b).sendTag = (s.st b).sendTag ∧
    ((expireResponse s).st b).send = (s.st b).send ∧
    ((expireResponse s).st b).sendResult = (s.st b).sendResult ∧
    ((expireResponse s).st b).queues = (s.st b).queues ∧
    ((expireResponse s).st b).limits = (s.st b).limits ∧
    ((expireResponse s).st b).readSlot = (s.st b).readSlot ∧
    ((expireResponse s).st b).confirms = (s.st b).confirms ∧
    ((expireResponse s).st b).confirmOverflow = (s.st b).confirmOverflow ∧
    ((expireResponse s).st b).wait = (s.st b).wait ∧
    ((expireResponse s).st b).lastWait = (s.st b).lastWait ∧
    ((expireResponse s).st b).enables = (s.st b).enables ∧
    ((expireResponse s).st b).disarm = (s.st b).disarm ∧
    ((expireResponse s).st b).levels = (s.st b).levels ∧
    ((expireResponse s).st b).vectorBase = (s.st b).vectorBase ∧
    ((expireResponse s).st b).inService = (s.st b).inService := by
  unfold expireResponse; split
  · split <;> simp
  · simp

@[simp] theorem expireDue_frame  (s : State) :
    (expireDue s).supervisor = s.supervisor ∧
    (expireDue s).cellStore = s.cellStore ∧
    (expireDue s).burst = s.burst ∧
    (expireDue s).responseLimit = s.responseLimit ∧
    (expireDue s).retryBudget = s.retryBudget ∧
    (expireDue s).burstLimit = s.burstLimit ∧
    (expireDue s).tickDiv = s.tickDiv ∧
    (expireDue s).tickCount = s.tickCount ∧
    (expireDue s).answer = s.answer ∧
    (expireDue s).pending = s.pending := by simp [expireDue]

@[simp] theorem expireDue_stations  (s : State) (b : StationId) :
    ((expireDue s).st b).state = (s.st b).state ∧
    ((expireDue s).st b).seqCounter = (s.st b).seqCounter ∧
    ((expireDue s).st b).roomWaitLimit = (s.st b).roomWaitLimit ∧
    ((expireDue s).st b).lockWaitLimit = (s.st b).lockWaitLimit ∧
    ((expireDue s).st b).result = (s.st b).result ∧
    ((expireDue s).st b).supOperand = (s.st b).supOperand ∧
    ((expireDue s).st b).staging = (s.st b).staging ∧
    ((expireDue s).st b).sendTag = (s.st b).sendTag ∧
    ((expireDue s).st b).queues = (s.st b).queues ∧
    ((expireDue s).st b).limits = (s.st b).limits ∧
    ((expireDue s).st b).readSlot = (s.st b).readSlot ∧
    ((expireDue s).st b).confirms = (s.st b).confirms ∧
    ((expireDue s).st b).confirmOverflow = (s.st b).confirmOverflow ∧
    ((expireDue s).st b).enables = (s.st b).enables ∧
    ((expireDue s).st b).disarm = (s.st b).disarm ∧
    ((expireDue s).st b).levels = (s.st b).levels ∧
    ((expireDue s).st b).vectorBase = (s.st b).vectorBase ∧
    ((expireDue s).st b).inService = (s.st b).inService := by simp [expireDue]

@[simp] theorem setSource_other (a : StationId) (n : SourceId) (s : State) {b : StationId} (h : b ≠ a) :
    (setSource a n s).st b = s.st b := by
  simp [setSource, h]

@[simp] theorem recordFault_other (a : StationId) (code : FaultCode) (detail : Word) (s : State) {b : StationId} (h : b ≠ a) :
    (recordFault a code detail s).st b = s.st b := by
  simp [recordFault, h]

@[simp] theorem endWait_other (a : StationId) (o : WaitOutcome) (s : State) {b : StationId} (h : b ≠ a) :
    (endWait a o s).st b = s.st b := by
  simp [endWait, h]

@[simp] theorem leaveWait_other (a : StationId) (o : WaitOutcome) (s : State) {b : StationId} (h : b ≠ a) :
    (leaveWait a o s).st b = s.st b := by
  unfold leaveWait; split <;> simp [h]

@[simp] theorem passLock_other (l : LockId) (a : StationId) (s : State) {b : StationId} (h : b ≠ a) :
    (passLock l a s).st b = s.st b := by
  unfold passLock; split <;> simp [h]

@[simp] theorem passCarried_other (carried : Option LockId) (a : StationId) (s : State) {b : StationId} (h : b ≠ a) :
    (passCarried carried a s).st b = s.st b := by
  cases carried <;> simp [passCarried, h]

@[simp] theorem allocate_other (a : StationId) (p : Post) (s : State) {b : StationId} (h : b ≠ a) :
    (allocate a p s).st b = s.st b := by
  unfold allocate; split
  · rfl
  · simp [State.st, h]

@[simp] theorem endPost_other (a : StationId) (p : Post) (o : SendOutcome) (s : State) {b : StationId} (h : b ≠ a) :
    (endPost a p o s).st b = s.st b := by
  simp [endPost, h]

@[simp] theorem endRoomWait_other (a : StationId) (o : SendOutcome) (sent : Bool) (s : State) {b : StationId} (h : b ≠ a) :
    (endRoomWait a o sent s).st b = s.st b := by
  unfold endRoomWait; split
  · cases sent <;> simp [h]
  · rfl

@[simp] theorem offerConfirmation_other (a : StationId) (e : Confirmation) (s : State) {b : StationId} (h : b ≠ a) :
    (offerConfirmation a e s).st b = s.st b := by
  unfold offerConfirmation; split <;> simp [h]

@[simp] theorem announceQueues_other (a : StationId) (s : State) {b : StationId} (h : b ≠ a) :
    (announceQueues a s).st b = s.st b := by
  unfold announceQueues
  generalize allClasses = cs
  induction cs generalizing s with
  | nil => rfl
  | cons c rest ih =>
    rw [List.foldl_cons, ih]
    unfold announceClass; split <;> simp [h]

@[simp] theorem takeHead_other (a : StationId) (c : ClassId) (d : DescId) (s : State) {b : StationId} (h : b ≠ a) :
    (takeHead a c d s).st b = s.st b := by
  unfold takeHead; split <;> simp [h]

@[simp] theorem disableRing_other (a : StationId) (s : State) {b : StationId} (h : b ≠ a) :
    (disableRing a s).st b = s.st b := by
  simp [disableRing, h]

@[simp] theorem settleRing_other (a : StationId) (s : State) {b : StationId} (h : b ≠ a) :
    (settleRing a s).st b = s.st b := by
  unfold settleRing; split <;> simp [h]

@[simp] theorem acceptPost_other (a : StationId) (p : Post) (s : State) {b : StationId} (h : b ≠ a) :
    (acceptPost a p s).st b = s.st b := by
  simp [acceptPost, h]

@[simp] theorem joinRoomQueue_other (a : StationId) (p : Post) (s : State) {b : StationId} (h : b ≠ a) :
    (joinRoomQueue a p s).st b = s.st b := by
  simp [joinRoomQueue, h]

@[simp] theorem joinWaiters_other (a : StationId) (l : LockId) (s : State) {b : StationId} (h : b ≠ a) :
    (joinWaiters a l s).st b = s.st b := by
  simp [joinWaiters, h]

@[simp] theorem abandonDelivery_other (a : StationId) (s : State) {b : StationId} (h : b ≠ a) :
    (abandonDelivery a s).st b = s.st b := by
  unfold abandonDelivery; split
  · split <;> simp [h]
  · rfl

@[simp] theorem expireLockWait_other (a : StationId) (s : State) {b : StationId} (h : b ≠ a) :
    (expireLockWait a s).st b = s.st b := by
  unfold expireLockWait; split <;> simp [h]

end Sys2Proof.Machine
end

