-- ==== Sys2Proof/Laws/Ops.lean ====
section
/-! SUPPORT. What the shared operations are, in the words of Safety.lean: one equation each, so that a proof cites it and
does not unfold the operation. -/

namespace Sys2Proof.Machine

/-! ### Answers and the command dispatch -/

theorem answerComplete_writeResult (a : StationId) (command : BitVec 8) (code : ResultCode) (t : State) :
    answerComplete none (writeResult a command code t) = answered a command code t := rfl

theorem answerComplete_none (t : State) : answerComplete none t = written t := rfl

/-- A COMMAND write that passes its dispatch check leaves what its body leaves, with RESULT written and COMPLETE
answered. -/
theorem runCommand_eq {a : StationId} {command : BitVec 8} {check : State → Option ResultCode}
    {body : State → State × ResultCode} {s : State} (hb : s.bown = false) (hc : check s = none) :
    runCommand a command check body s = answered a command (body s).2 (body s).1 := by
  simp [runCommand, writeAccess, hb, hc, answerComplete_writeResult]

/-- A COMMAND write that fails its dispatch check changes nothing but RESULT. -/
theorem runCommand_refused {a : StationId} {command : BitVec 8} {check : State → Option ResultCode}
    {body : State → State × ResultCode} {code : ResultCode} {s : State} (hb : s.bown = false) (hc : check s = some code) :
    runCommand a command check body s = answered a command code s := by
  simp [runCommand, writeAccess, hb, hc, answerComplete_writeResult]

theorem writeAccess_eq {f : State → State} {s : State} (hb : s.bown = false) : writeAccess f s = written (f s) := by
  simp [writeAccess, hb, answerComplete_none]

theorem checkStation_online {a : StationId} {s : State} (h : (s.st a).state = .online) : checkStation a s = none := by
  simp [checkStation, h]

theorem checkSupervisor_ok {a : StationId} {s : State} (hs : a = s.supervisor) (h : (s.st a).state = .online) :
    checkSupervisor a s = none := by
  simp [checkSupervisor, checkStation, h, ← hs]

/-- A property that answering keeps is kept by a COMMAND write whose body keeps it. -/
theorem runCommand_keeps {P : State → Prop} {a : StationId} {command : BitVec 8} {check : State → Option ResultCode}
    {body : State → State × ResultCode} {s : State} (hA : ∀ t code, P t → P (answered a command code t))
    (hU : ∀ t : State, P t → P (unanswered t)) (hbody : check s = none → s.bown = false → P (body s).1) (hs : P s) :
    P (runCommand a command check body s) := by
  by_cases hb : s.bown = false
  · cases hc : check s with
    | some code => rw [runCommand_refused hb hc]; exact hA _ _ hs
    | none => rw [runCommand_eq hb hc]; exact hA _ _ (hbody hc hb)
  · simp only [Bool.not_eq_false] at hb
    simp only [runCommand, writeAccess, hb, if_true]
    exact hU _ hs

/-- A property that answering keeps is kept by a write access whose effect keeps it. -/
theorem writeAccess_keeps {P : State → Prop} {f : State → State} {s : State} (hA : ∀ t, P t → P (written t))
    (hU : ∀ t : State, P t → P (unanswered t)) (hf : s.bown = false → P (f s)) (hs : P s) : P (writeAccess f s) := by
  by_cases hb : s.bown = false
  · rw [writeAccess_eq hb]; exact hA _ (hf hb)
  · simp only [Bool.not_eq_false] at hb
    simp only [writeAccess, hb, if_true]
    exact hU _ hs

/-! ### What an answer leaves alone -/

@[simp] theorem written_frame (t : State) :
    (written t).stations = t.stations ∧
    (written t).supervisor = t.supervisor ∧
    (written t).channels = t.channels ∧
    (written t).locks = t.locks ∧
    (written t).freeCells = t.freeCells ∧
    (written t).freeDescs = t.freeDescs ∧
    (written t).messages = t.messages ∧
    (written t).cellStore = t.cellStore ∧
    (written t).roomQueue = t.roomQueue ∧
    (written t).engine = t.engine ∧
    (written t).rrPointer = t.rrPointer ∧
    (written t).burst = t.burst ∧
    (written t).responseLimit = t.responseLimit ∧
    (written t).retryBudget = t.retryBudget ∧
    (written t).burstLimit = t.burstLimit ∧
    (written t).tickDiv = t.tickDiv ∧
    (written t).tickCount = t.tickCount ∧
    (written t).pending = t.pending := by simp [written]

@[simp] theorem written_reads (t : State) :
    (∀ b, (written t).st b = t.st b) ∧ (∀ c, (written t).chan c = t.chan c) ∧ (∀ l, (written t).lock l = t.lock l) ∧
      ∀ d, (written t).msg d = t.msg d := by
  simp [State.st, State.chan, State.lock, State.msg]

@[simp] theorem answered_frame (a : StationId) (command : BitVec 8) (code : ResultCode) (t : State) :
    (answered a command code t).supervisor = t.supervisor ∧
    (answered a command code t).channels = t.channels ∧
    (answered a command code t).locks = t.locks ∧
    (answered a command code t).freeCells = t.freeCells ∧
    (answered a command code t).freeDescs = t.freeDescs ∧
    (answered a command code t).messages = t.messages ∧
    (answered a command code t).cellStore = t.cellStore ∧
    (answered a command code t).roomQueue = t.roomQueue ∧
    (answered a command code t).engine = t.engine ∧
    (answered a command code t).rrPointer = t.rrPointer ∧
    (answered a command code t).burst = t.burst ∧
    (answered a command code t).responseLimit = t.responseLimit ∧
    (answered a command code t).retryBudget = t.retryBudget ∧
    (answered a command code t).burstLimit = t.burstLimit ∧
    (answered a command code t).tickDiv = t.tickDiv ∧
    (answered a command code t).tickCount = t.tickCount ∧
    (answered a command code t).pending = t.pending := by
  simp [answered]

@[simp] theorem answered_reads (a : StationId) (command : BitVec 8) (code : ResultCode) (t : State) :
    (∀ c, (answered a command code t).chan c = t.chan c) ∧ (∀ l, (answered a command code t).lock l = t.lock l) ∧
      ∀ d, (answered a command code t).msg d = t.msg d := by
  simp [State.chan, State.lock, State.msg]

@[simp] theorem answered_stations (a : StationId) (command : BitVec 8) (code : ResultCode) (t : State) (b : StationId) :
    ((answered a command code t).st b).state = (t.st b).state ∧
    ((answered a command code t).st b).seqCounter = (t.st b).seqCounter ∧
    ((answered a command code t).st b).roomWaitLimit = (t.st b).roomWaitLimit ∧
    ((answered a command code t).st b).lockWaitLimit = (t.st b).lockWaitLimit ∧
    ((answered a command code t).st b).supOperand = (t.st b).supOperand ∧
    ((answered a command code t).st b).staging = (t.st b).staging ∧
    ((answered a command code t).st b).sendTag = (t.st b).sendTag ∧
    ((answered a command code t).st b).send = (t.st b).send ∧
    ((answered a command code t).st b).sendResult = (t.st b).sendResult ∧
    ((answered a command code t).st b).queues = (t.st b).queues ∧
    ((answered a command code t).st b).limits = (t.st b).limits ∧
    ((answered a command code t).st b).readSlot = (t.st b).readSlot ∧
    ((answered a command code t).st b).confirms = (t.st b).confirms ∧
    ((answered a command code t).st b).confirmOverflow = (t.st b).confirmOverflow ∧
    ((answered a command code t).st b).wait = (t.st b).wait ∧
    ((answered a command code t).st b).lastWait = (t.st b).lastWait ∧
    ((answered a command code t).st b).ring = (t.st b).ring ∧
    ((answered a command code t).st b).pendingFlags = (t.st b).pendingFlags ∧
    ((answered a command code t).st b).enables = (t.st b).enables ∧
    ((answered a command code t).st b).disarm = (t.st b).disarm ∧
    ((answered a command code t).st b).levels = (t.st b).levels ∧
    ((answered a command code t).st b).vectorBase = (t.st b).vectorBase ∧
    ((answered a command code t).st b).inService = (t.st b).inService ∧
    ((answered a command code t).st b).fault = (t.st b).fault ∧
    ((answered a command code t).st b).multiple = (t.st b).multiple := by
  by_cases h : b = a
  · subst h; simp [answered]
  · simp [answered, h]

@[simp] theorem answered_other (a : StationId) (command : BitVec 8) (code : ResultCode) (t : State) {b : StationId}
    (h : b ≠ a) : (answered a command code t).st b = t.st b := by
  simp [answered, h]

@[simp] theorem answered_result (a : StationId) (command : BitVec 8) (code : ResultCode) (t : State) :
    ((answered a command code t).st a).result = { code, command } := by
  simp [answered]

/-! ### Notification -/

theorem setSource_eq (a : StationId) (n : SourceId) (s : State) : setSource a n s = s.modSt a (StationRec.raised n) := by
  unfold setSource StationRec.raised State.modSt
  congr 2
  by_cases h : (s.st a).state = .online <;> simp [h, sourceBit]

theorem recordFault_eq (a : StationId) (code : FaultCode) (detail : Word) (s : State) :
    recordFault a code detail s = s.modSt a (StationRec.faulted code detail) := by
  simp only [recordFault, setSource_eq, State.modSt_modSt]
  rfl

theorem sourceLevel_eq (r : StationRec) (n : SourceId) : r.sourceLevel n = r.level n := by
  simp [StationRec.sourceLevel, StationRec.level, Nat.shiftRight_eq_div_pow]

/-- The test for eligibility decides R144's words. -/
theorem ready_iff (r : StationRec) (n : SourceId) : r.Ready n ↔ r.eligible n = true := by
  have h1 : r.serving n = false ↔ ∀ e ∈ r.inService, e.source ≠ n := by simp [StationRec.serving]
  have h2 : r.topLevel < r.level n ↔
      (1 ≤ r.level n → ∀ e ∈ r.inService.getLast?, e.level < r.level n) ∧ 1 ≤ r.level n := by
    unfold StationRec.topLevel
    cases r.inService.getLast? with
    | none => simp; omega
    | some e => simp; omega
  simp only [StationRec.Ready, StationRec.eligible, sourceLevel_eq, Bool.and_eq_true, decide_eq_true_eq,
    Bool.not_eq_true', and_assoc]
  rw [h1, h2]
  tauto

/-! ### Sending -/

/-- A POST that passes the acceptance checks is refused by none. -/
theorem checkPost_of_passes {a : StationId} {ch : ChannelId} {len : Fin 128} {pass : Bool} {l : LockId} {s : State}
    (h : s.PostPasses a ch len pass l) : checkPost a ch len pass l s = none := by
  obtain ⟨h1, h2, h3, h4, h5, h6, h7⟩ := h
  unfold checkPost
  simp only [h1, h3, h4, h5, ne_eq, not_true, if_false, Config.maxLength, Nat.not_lt.mpr h2, Nat.not_le.mpr h6]
  cases pass
  · simp
  · obtain ⟨h8, h9⟩ := h7 rfl
    simp [h8, checkPassedLock, h9]

/-- Splitting the room queue at the one entry of a station. -/
theorem filter_station {pre post : List RoomEntry} {e : RoomEntry} {a : StationId} (he : e.station = a)
    (hx : ∀ x ∈ pre ++ post, x.station ≠ a) :
    ((pre ++ e :: post).filter fun x => x.station == a) = [e] ∧
      ((pre ++ e :: post).filter fun x => !(x.station == a)) = pre ++ post := by
  have h1 : ∀ x ∈ pre, (x.station == a) = false := fun x h => by simpa using hx x (by simp [h])
  have h2 : ∀ x ∈ post, (x.station == a) = false := fun x h => by simpa using hx x (by simp [h])
  constructor
  · have e1 : pre.filter (fun x => x.station == a) = [] := by
      rw [List.filter_eq_nil_iff]; intro x h; simp [h1 x h]
    have e2 : post.filter (fun x => x.station == a) = [] := by
      rw [List.filter_eq_nil_iff]; intro x h; simp [h2 x h]
    rw [List.filter_append, List.filter_cons, e1, e2]
    simp [he]
  · have e1 : pre.filter (fun x => !(x.station == a)) = pre := by
      rw [List.filter_eq_self]; intro x h; simp [h1 x h]
    have e2 : post.filter (fun x => !(x.station == a)) = post := by
      rw [List.filter_eq_self]; intro x h; simp [h2 x h]
    rw [List.filter_append, List.filter_cons, e1, e2]
    simp [he]

/-- All that the end of a room wait does: count, pledge, SEND_RESULT, send state and SENT. -/
theorem endRoomWait_eq {a : StationId} {p : Post} {s : State} (h : (s.st a).send = .awaitRoom p) (o : SendOutcome)
    (sent : Bool) :
    endRoomWait a o sent s =
      { s with
        channels := put s.channels p.channel { s.chan p.channel with count := (s.chan p.channel).count - 1 }
        locks := match p.passLock with
          | some l => put s.locks l { state := .held a, waiters := (s.lock l).waiters }
          | none => s.locks
        stations := put s.stations a
          (let r := { s.st a with send := .idle, sendResult := { outcome := o, sequence := p.sequence } }
           if sent then r.raised 5 else r) } := by
  unfold endRoomWait
  simp only [h, setSource_eq, endPost, srcSent]
  cases hp : p.passLock <;> cases sent <;>
    simp [setLockState, releaseCount, State.modSt, State.modChan, State.setLock, State.st, put_put, State.chan,
      State.lock]

/-- All that the end of one station's room wait does, with the examination where its entry was the head. -/
theorem removeWaiting_station {a : StationId} {pre post : List RoomEntry} {e : RoomEntry} {s : State}
    (hq : s.roomQueue = pre ++ e :: post) (he : e.station = a)
    (hx : ∀ x ∈ pre ++ post, x.station ≠ a) (o : SendOutcome) (sent : Bool) :
    removeWaiting (fun e => e.station == a) o sent s =
      if pre = [] then examine (endRoomWait a o sent { s with roomQueue := pre ++ post })
      else endRoomWait a o sent { s with roomQueue := pre ++ post } := by
  obtain ⟨f1, f2⟩ := filter_station he hx
  unfold removeWaiting
  rw [hq, f1, f2]
  have e1 : endRoomWaits [e] o sent { s with roomQueue := pre ++ post } =
      endRoomWait a o sent { s with roomQueue := pre ++ post } := by
    simp only [endRoomWaits, List.foldl, he]
  simp only [e1]
  cases pre with
  | nil => simp [he]
  | cons x xs =>
    have : (x.station == a) = false := by simpa using hx x (by simp)
    simp [this]

/-- An examination that grants the head goes on with the examination of the rest. -/
theorem examineAmong_cons {s : State} {e : RoomEntry} {rest : List RoomEntry} (h : s.fits e.cellsNeeded = true) :
    examineAmong (e :: rest) s = examine (grant e { s with roomQueue := rest }) := by
  have hr : (grant e { s with roomQueue := rest }).roomQueue = rest := by simp
  simp only [examineAmong, h, if_true, examine]
  rw [hr]

/-! ### Locks -/

/-- A handoff does not read the record it replaces. -/
theorem handoffAmong_setLock (l : LockId) (ws : List StationId) (s : State) (r : LockRecord) :
    handoffAmong l ws (s.setLock l r) = handoffAmong l ws s := by
  induction ws generalizing s with
  | nil => simp [handoffAmong, State.setLock, put_put]
  | cons w rest ih =>
    by_cases h : (s.st w).state = .online
    · have h' : ((s.setLock l r).st w).state = .online := h
      simp only [handoffAmong, h, h', if_true]
      simp [State.setLock, put_put]
    · have h' : ¬ ((s.setLock l r).st w).state = .online := h
      simp only [handoffAmong, h, h', if_false]
      rw [← ih (endWait w .cancelled s)]
      rfl

/-! ### Rings and the Delivery Engine -/

/-- One class of the announcement, as an update of the station's record. -/
theorem announceClass_eq (a : StationId) (s : State) (c : ClassId) :
    announceClass a s c = s.modSt a fun r => if r.queue c = [] then r else r.raised (srcArrive c) := by
  unfold announceClass
  by_cases h : (s.st a).queue c = []
  · rw [State.modSt_self s a (f := fun r => if r.queue c = [] then r else r.raised (srcArrive c)) (by simp [h])]
    simp [h]
  · simp [h, setSource_eq, State.modSt]

theorem announceQueues_eq (a : StationId) (s : State) :
    announceQueues a s = s.modSt a fun r =>
      { r with pendingFlags := if r.state = .online then r.pendingFlags ||| r.arrivals else r.pendingFlags } := by
  simp only [announceQueues, allClasses, List.foldl, announceClass_eq, State.modSt_modSt]
  unfold State.modSt
  congr 2
  generalize s.st a = r
  by_cases ho : r.state = .online <;> by_cases h0 : r.queue 0 = [] <;> by_cases h1 : r.queue 1 = [] <;>
    by_cases h2 : r.queue 2 = [] <;> by_cases h3 : r.queue 3 = [] <;>
    simp only [StationRec.queue] at h0 h1 h2 h3 <;>
    simp [h0, h1, h2, h3, ho, StationRec.raised, StationRec.queue, StationRec.arrivals, allClasses, srcArrive,
      BitVec.or_assoc]
  rw [← ho]

theorem disableRing_eq (a : StationId) (s : State) : disableRing a s = s.modSt a StationRec.ringOff := by
  simp only [disableRing, announceQueues_eq, State.modSt_modSt]
  rfl

/-- The setup checks decide R118's words. -/
theorem setupValid_iff (g : Ring) : g.setupValid = true ↔
    (8 ∣ g.base.toNat ∧ g.slots.toNat ∈ [4, 8, 16, 32, 64, 128, 256] ∧
      g.base.toNat + g.slots.toNat * 264 ≤ 0x100000000 ∧ 4 ∣ g.indexAddr.toNat ∧
      (g.indexAddr.toNat < g.base.toNat ∨ g.base.toNat + g.slots.toNat * 264 ≤ g.indexAddr.toNat)) := by
  simp only [Ring.setupValid, Ring.setupEnd, slotCounts, Config.slotBytes, Bool.and_eq_true, Bool.or_eq_true,
    decide_eq_true_eq, List.contains_iff_mem, Nat.dvd_iff_mod_eq_zero, and_assoc]
  norm_num
  intros
  exact Iff.or Iff.rfl decide_eq_true_iff

/-- All that a faulted delivery does. -/
theorem faultDelivery_eq {d : Delivery} {m : Message} {s : State} (hm : s.msg d.desc = some m) (code : FaultCode)
    (addr : Word) :
    faultDelivery d code addr s = startIfIdle
      (({ s with messages := put s.messages d.desc (some { m with state := .queued }), engine := .idle, gap := true } :
        State).modSt d.station fun r => StationRec.faulted code addr
          (if r.ring.state = .disabling then r.ringOff else { r with ring := { r.ring with state := .faulted } })) := by
  have e : setMessageState d.desc .queued s =
      { s with messages := put s.messages d.desc (some { m with state := .queued }) } := by
    simp [setMessageState, hm, State.setMsg]
  unfold faultDelivery releaseToIdle
  simp only [e, recordFault_eq, disableRing_eq]
  congr 1
  by_cases h : (s.st d.station).ring.state = .disabling <;> simp only [State.st] at h <;>
    simp [State.st, h, State.modSt, put_put]

theorem quiesce_of_not_quiescing {a : StationId} {s : State} (h : (s.st a).state ≠ .quiescing) : quiesce a s = s := by
  simp [quiesce, h]

end Sys2Proof.Machine
end

