-- ==== Sys2Proof/Laws/Commands.lean ====
section
/-! SUPPORT. What a step can do, said once: every command and every CLK period leaves what one of the updates below leaves.
A proof that a property holds after every step gives one field for each update. -/

namespace Sys2Proof.Machine

/-- The records agree but for the words and settings that no list, wait, flag or ring count depends on. -/
structure SameRecord (r t : StationRec) : Prop where
  state : t.state = r.state
  send : t.send = r.send
  queues : t.queues = r.queues
  limits : t.limits = r.limits
  readSlot : t.readSlot = r.readSlot
  confirms : t.confirms = r.confirms
  confirmOverflow : t.confirmOverflow = r.confirmOverflow
  wait : t.wait = r.wait
  inService : t.inService = r.inService
  pendingFlags : t.pendingFlags = r.pendingFlags
  ringState : t.ring.state = r.ring.state
  latchedSlots : t.ring.latchedSlots = r.ring.latchedSlots
  produced : t.ring.produced = r.ring.produced
  consumed : t.ring.consumed = r.ring.consumed

/-- `P` is kept by each update a command or a CLK period makes, under what the command has checked before it. -/
structure KeptByUpdates (P : State → Prop) : Prop where
  /-- The answer on the bus. -/
  onAnswer : ∀ (s : State) x, P s → P { s with answer := x }
  /-- The queue of commands. -/
  onPending : ∀ (s : State) x, P s → P { s with pending := x }
  /-- A CLK period without a tick. -/
  onCount : ∀ s : State, P s → s.tickCount + 1 < s.tickDiv → P { s with tickCount := s.tickCount + 1 }
  /-- A write that leaves a station's lists, states, waits, flags and ring counts alone. -/
  onPlain : ∀ a f (s : State), P s → SameRecord (s.st a) (f (s.st a)) → P (s.modSt a f)
  /-- A fault handed over. -/
  onFault : ∀ a code detail (s : State), P s → P (recordFault a code detail s)
  /-- Pending flags cleared. -/
  onClearFlags : ∀ a v (s : State), P s → P (s.modSt a fun r => { r with pendingFlags := r.pendingFlags &&& v })
  /-- ATTACH. -/
  onAttach : ∀ a (s : State), P s → s.bown = false → (s.st a).state = .offline → P (s.modSt a StationRec.attached)
  /-- RETIRE and RETIRE_STATION. -/
  onQuiescing : ∀ a (s : State), P s → s.bown = false → (s.st a).state = .online → P (enterQuiescing a s)
  /-- A POST given room at once. -/
  onPostNow : ∀ a ch len pass l p (s : State), P s → s.bown = false → (s.st a).state = .online →
    p = postRecord a ch len pass l s → checkPost a ch len pass l s = none → s.roomQueue = [] →
    s.fits p.cellsNeeded = true → P (allocate a p (acceptPost a p s))
  /-- A POST that waits. -/
  onPostWait : ∀ a ch len pass l p (s : State), P s → s.bown = false → (s.st a).state = .online →
    p = postRecord a ch len pass l s → checkPost a ch len pass l s = none →
    ¬ (s.roomQueue = [] ∧ s.fits p.cellsNeeded = true) → P (joinRoomQueue a p (acceptPost a p s))
  /-- CANCEL_POST. -/
  onCancelPost : ∀ a p (s : State), P s → (s.st a).send = .awaitRoom p →
    P (removeWaiting (fun e => e.station == a) .cancelled false s)
  /-- ROOM_WAIT_TIMER_EXPIRY. -/
  onRoomTimer : ∀ a (s : State), P s → roomTimerDue a s = true →
    P (removeWaiting (fun e => e.station == a) .timeout true s)
  /-- CLOSE_CHANNEL. -/
  onCloseChannel : ∀ ch (s : State), P s → (s.chan ch).state ≠ .closed →
    P (removeWaiting (fun e => e.channel == ch) .closed true (s.modChan ch fun e => { e with state := .closed }))
  /-- TAKE and TAKE_ANY. -/
  onTake : ∀ a c d rest (s : State), P s → (s.st a).state = .online → (s.st a).ring.state = .disabled →
    (s.st a).readSlot = none → (s.st a).queue c = d :: rest → P (takeHead a c d s)
  /-- RELEASE. -/
  onRelease : ∀ a slot (s : State), P s → (s.st a).state = .online → (s.st a).readSlot = some slot →
    P (endMessage .released slot.desc (s.modSt a fun r => { r with readSlot := none }))
  /-- SET_QLIMIT. -/
  onQueueLimit : ∀ a c (limit : Fin 256) (s : State), P s → (s.st a).state = .online → limit ≠ 0 →
    ¬ limit.val < ((s.st a).queue c).length → P (s.modSt a fun r => { r with limits := put r.limits c limit })
  /-- ACQUIRE and TRY_LOCK of a FREE lock. -/
  onTakeLock : ∀ a l (s : State), P s → (s.st a).state = .online → (s.lock l).state = .free → P (takeLock a l s)
  /-- ACQUIRE that waits. -/
  onJoinWaiters : ∀ a l (s : State), P s → (s.st a).state = .online → (s.lock l).state ≠ .free →
    (s.lock l).state.ownedBy a = false → (s.st a).wait = none → P (joinWaiters a l s)
  /-- RELEASE_LOCK and FORCE_RELEASE. -/
  onHandoff : ∀ a l (s : State), P s → (s.lock l).state = .held a → P (handoff l s)
  /-- CANCEL_WAIT. -/
  onCancelWait : ∀ a (s : State), P s → P (leaveWait a .cancelled s)
  /-- WAIT_TIMER_EXPIRY. -/
  onWaitTimer : ∀ a (s : State), P s → waitTimerDue a s = true → P (setSource a srcLock (leaveWait a .timeout s))
  /-- POP_CONFIRM. -/
  onPopConfirm : ∀ a e rest (s : State), P s → (s.st a).state = .online → (s.st a).confirms = e :: rest →
    P (s.modSt a fun r => { r with confirms := rest })
  /-- CONFIRM_HEAD_WRITE. -/
  onClearOverflow : ∀ a (s : State), P s → P (s.modSt a fun r => { r with confirmOverflow := false })
  /-- SET_TICK. -/
  onSetTick : ∀ n (s : State), P s → Config.minTickDiv ≤ n → n ≤ Config.maxTickDiv → P { s with tickDiv := n, tickCount := 0 }
  /-- SET_ENGINE. -/
  onSetEngine : ∀ (x : Fin 256) (y : Fin 8) (z : Fin 32) (s : State), P s → s.bown = false → x ≠ 0 → z ≠ 0 → z.val ≤ 16 →
    P { s with responseLimit := x.val, retryBudget := y.val, burstLimit := z.val }
  /-- OPEN_CHANNEL. -/
  onOpenChannel : ∀ ch dest c hold confirm pass mask (limit : Fin 256) (s : State), P s → limit ≠ 0 →
    (s.chan ch).state ≠ .opened → (s.chan ch).count = 0 → P (s.modChan ch fun e =>
      { state := .opened, dest, cls := c, mask, hold, confirm, pass, limit, count := e.count })
  /-- ENABLE_RING. -/
  onEnableRing : ∀ a (s : State), P s → s.bown = false → (s.st a).state = .online → (s.st a).ring.state = .disabled →
    (s.st a).ring.setupValid = true → P (startIfIdle (s.modSt a fun r => { r with ring := r.ring.enabled }))
  /-- DISABLE_RING during a delivery. -/
  onDisabling : ∀ a (s : State), P s → s.bown = false → (s.st a).state = .online → (s.st a).ring.state = .active →
    s.delivering a = true → P (s.modSt a fun r => { r with ring := { r.ring with state := .disabling } })
  /-- DISABLE_RING at once. -/
  onDisableRing : ∀ a (s : State), P s → s.bown = false → (s.st a).state = .online →
    ((s.st a).ring.state = .active ∧ s.delivering a = false ∨ (s.st a).ring.state = .stalled ∨
      (s.st a).ring.state = .faulted) → P (disableRing a s)
  /-- RESUME_RING. -/
  onResumeRing : ∀ a (s : State), P s → s.bown = false → (s.st a).state = .online → (s.st a).ring.state = .faulted →
    P (startIfIdle (s.modSt a fun r => { r with ring := { r.ring with state := r.ring.byFill } }))
  /-- RING_CONSUMED within the bound. -/
  onConsume : ∀ a (v : Half) (s : State), P s → s.bown = false → (s.st a).ring.state ≠ .disabled →
    ((s.st a).ring.produced - v).toNat ≤ (s.st a).ring.consumedBound (s.delivering a) →
    P (startIfIdle (s.modSt a fun r => { r with ring := r.ring.consume v }))
  /-- ACK. -/
  onAcknowledge : ∀ a n (s : State), P s → (s.st a).chosenSource = some n → P (s.modSt a fun r => r.acknowledge n)
  /-- END_SERVICE. -/
  onEndService : ∀ a (s : State), P s → P (s.modSt a fun r => { r with inService := r.inService.dropLast })
  /-- RESET. -/
  onReset : ∀ v q, P { State.reset with supervisor := v, pending := q }
  /-- The counting of a tick. -/
  onTick : ∀ s : State, P s → P (tickAll s)
  /-- RESP_FAULT, RESPONSE_LIMIT_EXPIRY and RESP_RETRY beyond the budget. -/
  onFaultDelivery : ∀ d c code addr (s : State), P s → s.engine = .transfer d c → P (faultDelivery d code addr s)
  /-- COPY_COMPLETION. -/
  onCopyCompletion : ∀ a p d m (s : State), P s → (s.st a).send = .copying p d → s.msg d = some m →
    P (quiesce a (startIfIdle (attemptEnqueue a p d m
      { s with cellStore := copyPayload m.cells m.length (s.st a).staging s.cellStore })))
  /-- BUS_GRANT. -/
  onBusGrant : ∀ d (s : State), P s → s.engine = .busWait d → s.gap = false → P (issueWrite d { s with burst := 0 })
  /-- BRQ_REASSERT. -/
  onReassert : ∀ s : State, P s → P { s with gap := false }
  /-- RESP_COMPLETE before the index write. -/
  onNextWrite : ∀ d c w (s : State), P s → s.engine = .transfer d c → nextWrite (deliveryLength d s) d.next = some w →
    P (issueWrite { d with next := w } s)
  /-- RESP_COMPLETE of the index write. -/
  onComplete : ∀ d c (s : State), P s → s.engine = .transfer d c → nextWrite (deliveryLength d s) d.next = none →
    P (completeDelivery d s)
  /-- RESP_RETRY within the budget. -/
  onRetry : ∀ d c (s : State), P s → s.engine = .transfer d c → d.retries + 1 ≤ s.retryBudget →
    P { s with engine := .busWait { d with retries := d.retries + 1 }, gap := true }

theorem online_of_checkStation {a : StationId} {s : State} (h : checkStation a s = none) : (s.st a).state = .online := by
  unfold checkStation at h
  split at h
  · assumption
  · simp at h

theorem online_of_checkSupervisor {a : StationId} {s : State} (h : checkSupervisor a s = none) :
    (s.st a).state = .online := by
  unfold checkSupervisor at h
  split at h
  · simp at h
  · exact online_of_checkStation h

theorem KeptByUpdates.keepsAnswered {P : State → Prop} (k : KeptByUpdates P) {a : StationId} {command : BitVec 8}
    {code : ResultCode} {s : State} (h : P s) : P (answered a command code s) :=
  k.onAnswer _ _ (k.onPlain a _ s h (by constructor <;> rfl))

theorem KeptByUpdates.keepsRunCommand {P : State → Prop} (k : KeptByUpdates P) {a : StationId} {command : BitVec 8}
    {check : State → Option ResultCode} {body : State → State × ResultCode} {s : State} (hs : P s)
    (hbody : check s = none → s.bown = false → P (body s).1) : P (runCommand a command check body s) :=
  runCommand_keeps (fun _ _ h => k.keepsAnswered h) (fun _ h => k.onAnswer _ _ h) hbody hs

theorem KeptByUpdates.keepsWriteAccess {P : State → Prop} (k : KeptByUpdates P) {f : State → State} {s : State} (hs : P s)
    (hf : s.bown = false → P (f s)) : P (writeAccess f s) :=
  writeAccess_keeps (fun _ h => k.onAnswer _ _ h) (fun _ h => k.onAnswer _ _ h) hf hs

theorem KeptByUpdates.keepsExpireRoomWait {P : State → Prop} (k : KeptByUpdates P) (a : StationId) (s : State) (hs : P s) :
    P (expireRoomWait a s) := by
  unfold expireRoomWait
  split
  · exact k.onRoomTimer a s hs ‹_›
  · exact hs

theorem KeptByUpdates.keepsExpireLockWait {P : State → Prop} (k : KeptByUpdates P) (a : StationId) (s : State) (hs : P s) :
    P (expireLockWait a s) := by
  unfold expireLockWait
  split
  · exact k.onWaitTimer a s hs ‹_›
  · exact hs

theorem KeptByUpdates.keepsExpireResponse {P : State → Prop} (k : KeptByUpdates P) (s : State) (hs : P s) :
    P (expireResponse s) := by
  unfold expireResponse
  split
  · split
    · exact k.onFaultDelivery _ _ _ _ s hs ‹_›
    · exact hs
  · exact hs

/-- A property that each visit keeps is kept by the visits of a whole list. -/
theorem foldl_keeps {α : Type} {P : State → Prop} {f : State → α → State} (hf : ∀ t x, P t → P (f t x)) (xs : List α)
    (s : State) (hs : P s) : P (xs.foldl f s) := by
  induction xs generalizing s with
  | nil => exact hs
  | cons x rest ih => exact ih _ (hf s x hs)

/-- What every update keeps, the expiry of all due timers keeps. -/
theorem KeptByUpdates.keepsExpireDue {P : State → Prop} (k : KeptByUpdates P) (s : State) (hs : P s) : P (expireDue s) :=
  k.keepsExpireResponse _ (foldl_keeps (fun t a h => k.keepsExpireLockWait a t h) _ _
    (foldl_keeps (fun t a h => k.keepsExpireRoomWait a t h) _ _ hs))

/-- What every update keeps, every command keeps. -/
theorem KeptByUpdates.keepsExec {P : State → Prop} (k : KeptByUpdates P) (i : Instr) (s t : State) (hs : P s)
    (ht : exec i s = .next t) : P t := by
  cases i with
  | attach a =>
    obtain rfl := Host.Outcome.next.inj ht
    refine k.keepsRunCommand hs fun hc hb => ?_
    split
    · exact k.onAttach a s hs hb ‹_›
    · exact hs
  | retire a =>
    obtain rfl := Host.Outcome.next.inj ht
    exact k.keepsRunCommand hs fun hc hb => k.onQuiescing a s hs hb (online_of_checkStation hc)
  | retireStation a t =>
    obtain rfl := Host.Outcome.next.inj ht
    refine k.keepsRunCommand hs fun hc hb => ?_
    split
    · exact k.onQuiescing t s hs hb ‹_›
    · exact hs
  | post a ch len pass l =>
    obtain rfl := Host.Outcome.next.inj ht
    refine k.keepsRunCommand hs fun hc hb => ?_
    unfold judgePost
    split
    · exact hs
    · rename_i h
      simp only
      split
      · rename_i h'
        exact k.onPostNow a ch len pass l _ s hs hb (online_of_checkStation hc) rfl h h'.1 h'.2
      · rename_i h'
        split
        · exact k.onPostWait a ch len pass l _ s hs hb (online_of_checkStation hc) rfl h h'
        · exact hs
  | cancelPost a =>
    obtain rfl := Host.Outcome.next.inj ht
    refine k.keepsRunCommand hs fun hc hb => ?_
    split
    · exact k.onCancelPost a _ s hs ‹_›
    · exact hs
    · exact hs
  | take a c =>
    obtain rfl := Host.Outcome.next.inj ht
    refine k.keepsRunCommand hs fun hc hb => ?_
    split
    · exact hs
    · rename_i h
      unfold takeFrom
      split
      · unfold checkTake at h
        split at h
        · simp at h
        · split at h
          · simp at h
          · rename_i h1 h2
            exact k.onTake a c _ _ s hs (online_of_checkStation hc) (by simpa using h1) (by simpa using h2) ‹_›
      · exact hs
  | takeAny a =>
    obtain rfl := Host.Outcome.next.inj ht
    refine k.keepsRunCommand hs fun hc hb => ?_
    split
    · exact hs
    · rename_i h
      split
      · unfold takeFrom
        split
        · unfold checkTake at h
          split at h
          · simp at h
          · split at h
            · simp at h
            · rename_i h1 h2
              exact k.onTake a _ _ _ s hs (online_of_checkStation hc) (by simpa using h1) (by simpa using h2) ‹_›
        · exact hs
      · exact hs
  | release a =>
    obtain rfl := Host.Outcome.next.inj ht
    refine k.keepsRunCommand hs fun hc hb => ?_
    split
    · exact k.onRelease a _ s hs (online_of_checkStation hc) ‹_›
    · exact hs
  | acquire a l =>
    obtain rfl := Host.Outcome.next.inj ht
    refine k.keepsRunCommand hs fun hc hb => ?_
    split
    · exact k.onTakeLock a l s hs (online_of_checkStation hc) ‹_›
    · split
      · exact hs
      · split
        · exact hs
        · rename_i h1 h2 h3
          exact k.onJoinWaiters a l s hs (online_of_checkStation hc) h1 (by simpa using h2) (by simpa using h3)
  | tryLock a l =>
    obtain rfl := Host.Outcome.next.inj ht
    refine k.keepsRunCommand hs fun hc hb => ?_
    split
    · exact k.onTakeLock a l s hs (online_of_checkStation hc) ‹_›
    · split <;> exact hs
  | releaseLock a l =>
    obtain rfl := Host.Outcome.next.inj ht
    refine k.keepsRunCommand hs fun hc hb => ?_
    split
    · exact k.onHandoff a l s hs ‹_›
    · split <;> exact hs
  | cancelWait a =>
    obtain rfl := Host.Outcome.next.inj ht
    refine k.keepsRunCommand hs fun hc hb => ?_
    split
    · exact k.onCancelWait a s hs
    · exact hs
  | popConfirm a =>
    obtain rfl := Host.Outcome.next.inj ht
    refine k.keepsRunCommand hs fun hc hb => ?_
    split
    · exact k.onPopConfirm a _ _ s hs (online_of_checkStation hc) ‹_›
    · exact hs
  | setQlimit a c limit =>
    obtain rfl := Host.Outcome.next.inj ht
    refine k.keepsRunCommand hs fun hc hb => ?_
    split
    · exact hs
    · split
      · exact hs
      · exact k.onQueueLimit a c limit s hs (online_of_checkStation hc) ‹_› ‹_›
  | enableRing a =>
    obtain rfl := Host.Outcome.next.inj ht
    refine k.keepsRunCommand hs fun hc hb => ?_
    split
    · exact hs
    · split
      · exact hs
      · rename_i h1 h2
        exact k.onEnableRing a s hs hb (online_of_checkStation hc) (by simpa using h1) (by simpa using h2)
  | disableRing a =>
    obtain rfl := Host.Outcome.next.inj ht
    refine k.keepsRunCommand hs fun hc hb => ?_
    have ho := online_of_checkStation hc
    split
    · split
      · exact k.onDisabling a s hs hb ho ‹_› ‹_›
      · rename_i h1 h2
        dsimp only
        exact k.onDisableRing a s hs hb ho (Or.inl ⟨h1, by simpa using h2⟩)
    · dsimp only; exact k.onDisableRing a s hs hb ho (Or.inr (Or.inl ‹_›))
    · dsimp only; exact k.onDisableRing a s hs hb ho (Or.inr (Or.inr ‹_›))
    · exact hs
    · exact hs
  | resumeRing a =>
    obtain rfl := Host.Outcome.next.inj ht
    refine k.keepsRunCommand hs fun hc hb => ?_
    split
    · exact k.onResumeRing a s hs hb (online_of_checkStation hc) ‹_›
    · exact hs
  | openChannel a ch dest c hold confirm pass limit =>
    obtain rfl := Host.Outcome.next.inj ht
    refine k.keepsRunCommand hs fun hc hb => ?_
    split
    · exact hs
    · split
      · exact hs
      · split
        · exact hs
        · split
          · exact hs
          · rename_i h1 h2 h3 h4
            exact k.onOpenChannel ch dest c hold confirm pass _ limit s hs h1 h3 (by simpa using h4)
  | closeChannel a ch =>
    obtain rfl := Host.Outcome.next.inj ht
    refine k.keepsRunCommand hs fun hc hb => ?_
    split
    · exact hs
    · exact k.onCloseChannel ch s hs ‹_›
  | forceRelease a l =>
    obtain rfl := Host.Outcome.next.inj ht
    refine k.keepsRunCommand hs fun hc hb => ?_
    split
    · rename_i o ho
      exact k.onHandoff o l _ (k.onFault o _ _ s hs) (by rw [recordFault_eq]; exact ho)
    all_goals exact hs
  | setTick a =>
    obtain rfl := Host.Outcome.next.inj ht
    refine k.keepsRunCommand hs fun hc hb => ?_
    split
    · exact hs
    · rename_i h
      exact k.onSetTick _ s hs (by omega) (by omega)
  | setEngine a x y z =>
    obtain rfl := Host.Outcome.next.inj ht
    refine k.keepsRunCommand hs fun hc hb => ?_
    split
    · exact hs
    · split
      · exact hs
      · rename_i h1 h2
        exact k.onSetEngine x y z s hs hb h1 (by tauto) (by simp at h2; omega)
  | badCommand a code =>
    obtain rfl := Host.Outcome.next.inj ht
    show P (runCommand a code (fun _ => some .badCommand) (fun s => (s, .badCommand)) s)
    by_cases hb : s.bown = false
    · rw [runCommand_refused (code := .badCommand) hb rfl]
      exact k.keepsAnswered hs (a := a) (command := code) (code := .badCommand)
    · simp only [Bool.not_eq_false] at hb
      simp only [runCommand, writeAccess, hb, if_true]; exact k.onAnswer _ _ hs
  | stagingWrite a j w =>
    obtain rfl := Host.Outcome.next.inj ht
    show P (writeAccess _ s)
    refine k.keepsWriteAccess hs fun hb => ?_
    split
    · exact k.onPlain a _ s hs (by constructor <;> rfl)
    · exact k.onFault _ _ _ s hs
  | ringConsumed a w =>
    obtain rfl := Host.Outcome.next.inj ht
    show P (writeAccess _ s)
    refine k.keepsWriteAccess hs fun hb => ?_
    simp only
    split
    · exact hs
    · split
      · exact k.onConsume a _ s hs hb ‹_› ‹_›
      · exact k.onFault _ _ _ s hs
  | notifyPending a w =>
    obtain rfl := Host.Outcome.next.inj ht
    show P (writeAccess _ s)
    refine k.keepsWriteAccess hs fun hb => ?_
    exact k.onClearFlags a _ s hs
  | notifyEnable a w =>
    obtain rfl := Host.Outcome.next.inj ht
    show P (writeAccess _ s)
    refine k.keepsWriteAccess hs fun hb => ?_
    unfold configure; split
    · exact k.onPlain a _ s hs (by constructor <;> rfl)
    · exact hs
  | notifyDisarm a w =>
    obtain rfl := Host.Outcome.next.inj ht
    show P (writeAccess _ s)
    refine k.keepsWriteAccess hs fun hb => ?_
    unfold configure; split
    · exact k.onPlain a _ s hs (by constructor <;> rfl)
    · exact hs
  | notifyLevels a w =>
    obtain rfl := Host.Outcome.next.inj ht
    show P (writeAccess _ s)
    refine k.keepsWriteAccess hs fun hb => ?_
    unfold configure; split
    · exact k.onPlain a _ s hs (by constructor <;> rfl)
    · exact hs
  | vectorBase a w =>
    obtain rfl := Host.Outcome.next.inj ht
    show P (writeAccess _ s)
    refine k.keepsWriteAccess hs fun hb => ?_
    unfold configure; split
    · exact k.onPlain a _ s hs (by constructor <;> rfl)
    · exact hs
  | ack a =>
    obtain rfl := Host.Outcome.next.inj ht
    show P (if s.bown then unanswered s else _)
    split
    · exact k.onAnswer _ _ hs
    · split
      · exact k.onAnswer _ _ (k.onAcknowledge a _ s hs ‹_›)
      · exact k.onAnswer _ _ hs
  | endService a w =>
    obtain rfl := Host.Outcome.next.inj ht
    show P (writeAccess _ s)
    refine k.keepsWriteAccess hs fun hb => ?_
    exact k.onEndService a s hs
  | confirmHeadWrite a w =>
    obtain rfl := Host.Outcome.next.inj ht
    show P (writeAccess _ s)
    refine k.keepsWriteAccess hs fun hb => ?_
    exact k.onClearOverflow a s hs
  | faultRecordWrite a w =>
    obtain rfl := Host.Outcome.next.inj ht
    show P (writeAccess _ s)
    refine k.keepsWriteAccess hs fun hb => ?_
    exact k.onPlain a _ s hs (by constructor <;> rfl)
  | waitLimits a w =>
    obtain rfl := Host.Outcome.next.inj ht
    show P (writeAccess _ s)
    refine k.keepsWriteAccess hs fun hb => ?_
    split
    · exact k.onPlain a _ s hs (by constructor <;> rfl)
    · exact hs
  | registerWrite t w =>
    obtain rfl := Host.Outcome.next.inj ht
    show P (writeAccess _ s)
    refine k.keepsWriteAccess hs fun hb => ?_
    split
    · rename_i a k'
      refine k.onPlain a _ s hs ?_
      cases k' <;> constructor <;> rfl
    · exact hs
  | partialOrUnmappedAccess off be write =>
    obtain rfl := Host.Outcome.next.inj ht
    show P (if s.bown then unanswered s else _)
    split
    · exact k.onAnswer _ _ hs
    · split
      · exact k.onAnswer _ _ (k.onFault _ _ _ s hs)
      · exact k.onAnswer _ _ hs
  | reset v =>
    obtain rfl := Host.Outcome.next.inj ht
    exact k.onReset v s.pending
  | tick =>
    obtain rfl := Host.Outcome.next.inj ht
    exact k.onTick _ (k.keepsExpireDue s hs)
  | roomWaitTimerExpiry a =>
    obtain rfl := Host.Outcome.next.inj ht
    exact k.keepsExpireRoomWait a s hs
  | waitTimerExpiry a =>
    obtain rfl := Host.Outcome.next.inj ht
    exact k.keepsExpireLockWait a s hs
  | responseLimitExpiry =>
    obtain rfl := Host.Outcome.next.inj ht
    exact k.keepsExpireResponse s hs
  | copyCompletion a =>
    simp only [Machine.exec, execCopyCompletion] at ht
    split at ht
    · split at ht
      · obtain rfl := Host.Outcome.next.inj ht; exact k.onCopyCompletion a _ _ _ s hs ‹_› ‹_›
      · obtain rfl := Host.Outcome.next.inj ht; exact hs
    · obtain rfl := Host.Outcome.next.inj ht; exact hs
  | busGrant =>
    simp only [Machine.exec, execBusGrant] at ht
    split at ht
    · split at ht
      · obtain rfl := Host.Outcome.next.inj ht; exact hs
      · obtain rfl := Host.Outcome.next.inj ht; exact k.onBusGrant _ s hs ‹_› (Bool.eq_false_iff.mpr ‹_›)
    · obtain rfl := Host.Outcome.next.inj ht; exact hs
  | brqReassert =>
    obtain rfl := Host.Outcome.next.inj ht
    exact k.onReassert s hs
  | respComplete =>
    simp only [Machine.exec, execRespComplete] at ht
    split at ht
    · split at ht
      · obtain rfl := Host.Outcome.next.inj ht; exact k.onNextWrite _ _ _ s hs ‹_› ‹_›
      · obtain rfl := Host.Outcome.next.inj ht; exact k.onComplete _ _ s hs ‹_› ‹_›
    · obtain rfl := Host.Outcome.next.inj ht; exact hs
  | respRetry =>
    simp only [Machine.exec, execRespRetry] at ht
    split at ht
    · split at ht
      · obtain rfl := Host.Outcome.next.inj ht; exact k.onFaultDelivery _ _ _ _ s hs ‹_›
      · obtain rfl := Host.Outcome.next.inj ht; exact k.onRetry _ _ s hs ‹_› (by omega)
    · obtain rfl := Host.Outcome.next.inj ht; exact hs
  | respFault =>
    simp only [Machine.exec, execRespFault] at ht
    split at ht
    · obtain rfl := Host.Outcome.next.inj ht; exact k.onFaultDelivery _ _ _ _ s hs ‹_›
    · obtain rfl := Host.Outcome.next.inj ht; exact hs

/-- What every update keeps, every step keeps. -/
theorem KeptByUpdates.keepsStep {P : State → Prop} (k : KeptByUpdates P) (s t : State) (hs : P s) (ht : step s = .next t) :
    P t := by
  unfold Machine.step at ht
  split at ht
  · obtain rfl := Host.Outcome.next.inj ht
    have h := k.keepsExpireDue s hs
    unfold clkPeriod
    dsimp only
    split
    · exact k.keepsExpireDue _ (k.onTick _ h)
    · exact k.onCount _ h (by omega)
  · exact k.keepsExec _ _ _ (k.onPending s _ hs) ht

end Sys2Proof.Machine
end

