-- ==== Sys2Proof/Laws/PerInstr.lean ====
section
/-! SUPPORT. For each row of the table: the COMMAND word that spells a command of the row, with every operand, decodes to
that command (R188, Table 10-4). A row that is no COMMAND write has no such word. -/

namespace Sys2Proof.Laws

open Sys2Proof.Machine (pack placed fieldAt flagAt flagValue pack_toNat fieldAt_val)

/-- A one-bit field of a word reads as the flag whose value it holds. -/
theorem flagAt_of_value {w : Word} {lo : Nat} {b : Bool} (h : w.toNat / 2 ^ lo % 2 = flagValue b) : flagAt w lo = b := by
  unfold flagAt
  rw [h]
  cases b <;> rfl

/-- A field of a word reads as the value it holds. -/
theorem fieldAt_of_value {w : Word} {lo n : Nat} [NeZero n] {x : Fin n} (h : w.toNat / 2 ^ lo % n = x.val) :
    fieldAt w lo n = x := by
  apply Fin.ext
  rw [fieldAt_val, h]

/-- The COMMAND word of a well-formed command decodes to it. -/
def CommandWord.Statement (i : Instr) : Prop :=
  wellFormed i = true → ∀ a w, encodeCommand i = some (a, w) → decodeCommand a w = i

theorem CommandWord.attach (a : StationId) : CommandWord.Statement (.attach a) := by
  rintro _ a' w h
  obtain ⟨rfl, rfl⟩ := Prod.mk.inj (Option.some.inj h)
  rfl

theorem CommandWord.retire (a : StationId) : CommandWord.Statement (.retire a) := by
  rintro _ a' w h
  obtain ⟨rfl, rfl⟩ := Prod.mk.inj (Option.some.inj h)
  rfl

theorem CommandWord.post (a : StationId) (ch : ChannelId) (len : Fin 128) (pass : Bool) (l : LockId) : CommandWord.Statement (.post a ch len pass l) := by
  rintro _ a' w h
  obtain ⟨rfl, rfl⟩ := Prod.mk.inj (Option.some.inj h)
  have h_ch := ch.isLt
  have h_len := len.isLt
  have h_pass := Machine.flagValue_le pass
  have h_l := l.isLt
  have hv : (pack [(0, 0x3), (8, ch.val), (14, len.val), (21, flagValue pass), (22, l.val)]).toNat = 3 + ch.val * 256 + len.val * 16384 + flagValue pass * 2097152 + l.val * 4194304 := by
    rw [pack_toNat]; simp only [placed]; omega
  have hc : (pack [(0, 0x3), (8, ch.val), (14, len.val), (21, flagValue pass), (22, l.val)]).toNat % 256 = 0x3 := by omega
  simp only [decodeCommand, hc]
  have e_ch : fieldAt (pack [(0, 0x3), (8, ch.val), (14, len.val), (21, flagValue pass), (22, l.val)]) 8 64 = ch := fieldAt_of_value (by rw [hv]; omega)
  have e_len : fieldAt (pack [(0, 0x3), (8, ch.val), (14, len.val), (21, flagValue pass), (22, l.val)]) 14 128 = len := fieldAt_of_value (by rw [hv]; omega)
  have e_pass : flagAt (pack [(0, 0x3), (8, ch.val), (14, len.val), (21, flagValue pass), (22, l.val)]) 21 = pass := flagAt_of_value (by rw [hv]; omega)
  have e_l : fieldAt (pack [(0, 0x3), (8, ch.val), (14, len.val), (21, flagValue pass), (22, l.val)]) 22 32 = l := fieldAt_of_value (by rw [hv]; omega)
  rw [e_ch, e_len, e_pass, e_l]

theorem CommandWord.cancelPost (a : StationId) : CommandWord.Statement (.cancelPost a) := by
  rintro _ a' w h
  obtain ⟨rfl, rfl⟩ := Prod.mk.inj (Option.some.inj h)
  rfl

theorem CommandWord.take (a : StationId) (c : ClassId) : CommandWord.Statement (.take a c) := by
  rintro _ a' w h
  obtain ⟨rfl, rfl⟩ := Prod.mk.inj (Option.some.inj h)
  have h_c := c.isLt
  have hv : (pack [(0, 0x5), (8, c.val)]).toNat = 5 + c.val * 256 := by
    rw [pack_toNat]; simp only [placed]; omega
  have hc : (pack [(0, 0x5), (8, c.val)]).toNat % 256 = 0x5 := by omega
  simp only [decodeCommand, hc]
  have e_c : fieldAt (pack [(0, 0x5), (8, c.val)]) 8 4 = c := fieldAt_of_value (by rw [hv]; omega)
  rw [e_c]

theorem CommandWord.takeAny (a : StationId) : CommandWord.Statement (.takeAny a) := by
  rintro _ a' w h
  obtain ⟨rfl, rfl⟩ := Prod.mk.inj (Option.some.inj h)
  rfl

theorem CommandWord.release (a : StationId) : CommandWord.Statement (.release a) := by
  rintro _ a' w h
  obtain ⟨rfl, rfl⟩ := Prod.mk.inj (Option.some.inj h)
  rfl

theorem CommandWord.acquire (a : StationId) (l : LockId) : CommandWord.Statement (.acquire a l) := by
  rintro _ a' w h
  obtain ⟨rfl, rfl⟩ := Prod.mk.inj (Option.some.inj h)
  have h_l := l.isLt
  have hv : (pack [(0, 0x8), (8, l.val)]).toNat = 8 + l.val * 256 := by
    rw [pack_toNat]; simp only [placed]; omega
  have hc : (pack [(0, 0x8), (8, l.val)]).toNat % 256 = 0x8 := by omega
  simp only [decodeCommand, hc]
  have e_l : fieldAt (pack [(0, 0x8), (8, l.val)]) 8 32 = l := fieldAt_of_value (by rw [hv]; omega)
  rw [e_l]

theorem CommandWord.tryLock (a : StationId) (l : LockId) : CommandWord.Statement (.tryLock a l) := by
  rintro _ a' w h
  obtain ⟨rfl, rfl⟩ := Prod.mk.inj (Option.some.inj h)
  have h_l := l.isLt
  have hv : (pack [(0, 0x9), (8, l.val)]).toNat = 9 + l.val * 256 := by
    rw [pack_toNat]; simp only [placed]; omega
  have hc : (pack [(0, 0x9), (8, l.val)]).toNat % 256 = 0x9 := by omega
  simp only [decodeCommand, hc]
  have e_l : fieldAt (pack [(0, 0x9), (8, l.val)]) 8 32 = l := fieldAt_of_value (by rw [hv]; omega)
  rw [e_l]

theorem CommandWord.releaseLock (a : StationId) (l : LockId) : CommandWord.Statement (.releaseLock a l) := by
  rintro _ a' w h
  obtain ⟨rfl, rfl⟩ := Prod.mk.inj (Option.some.inj h)
  have h_l := l.isLt
  have hv : (pack [(0, 0xa), (8, l.val)]).toNat = 10 + l.val * 256 := by
    rw [pack_toNat]; simp only [placed]; omega
  have hc : (pack [(0, 0xa), (8, l.val)]).toNat % 256 = 0xa := by omega
  simp only [decodeCommand, hc]
  have e_l : fieldAt (pack [(0, 0xa), (8, l.val)]) 8 32 = l := fieldAt_of_value (by rw [hv]; omega)
  rw [e_l]

theorem CommandWord.cancelWait (a : StationId) : CommandWord.Statement (.cancelWait a) := by
  rintro _ a' w h
  obtain ⟨rfl, rfl⟩ := Prod.mk.inj (Option.some.inj h)
  rfl

theorem CommandWord.popConfirm (a : StationId) : CommandWord.Statement (.popConfirm a) := by
  rintro _ a' w h
  obtain ⟨rfl, rfl⟩ := Prod.mk.inj (Option.some.inj h)
  rfl

theorem CommandWord.setQlimit (a : StationId) (c : ClassId) (limit : Fin 256) : CommandWord.Statement (.setQlimit a c limit) := by
  rintro _ a' w h
  obtain ⟨rfl, rfl⟩ := Prod.mk.inj (Option.some.inj h)
  have h_c := c.isLt
  have h_limit := limit.isLt
  have hv : (pack [(0, 0xd), (8, c.val), (16, limit.val)]).toNat = 13 + c.val * 256 + limit.val * 65536 := by
    rw [pack_toNat]; simp only [placed]; omega
  have hc : (pack [(0, 0xd), (8, c.val), (16, limit.val)]).toNat % 256 = 0xd := by omega
  simp only [decodeCommand, hc]
  have e_c : fieldAt (pack [(0, 0xd), (8, c.val), (16, limit.val)]) 8 4 = c := fieldAt_of_value (by rw [hv]; omega)
  have e_limit : fieldAt (pack [(0, 0xd), (8, c.val), (16, limit.val)]) 16 256 = limit := fieldAt_of_value (by rw [hv]; omega)
  rw [e_c, e_limit]

theorem CommandWord.enableRing (a : StationId) : CommandWord.Statement (.enableRing a) := by
  rintro _ a' w h
  obtain ⟨rfl, rfl⟩ := Prod.mk.inj (Option.some.inj h)
  rfl

theorem CommandWord.disableRing (a : StationId) : CommandWord.Statement (.disableRing a) := by
  rintro _ a' w h
  obtain ⟨rfl, rfl⟩ := Prod.mk.inj (Option.some.inj h)
  rfl

theorem CommandWord.resumeRing (a : StationId) : CommandWord.Statement (.resumeRing a) := by
  rintro _ a' w h
  obtain ⟨rfl, rfl⟩ := Prod.mk.inj (Option.some.inj h)
  rfl

theorem CommandWord.openChannel (a : StationId) (ch : ChannelId) (dest : StationId) (c : ClassId) (hold : Bool) (confirm : Bool) (pass : Bool) (limit : Fin 256) : CommandWord.Statement (.openChannel a ch dest c hold confirm pass limit) := by
  rintro _ a' w h
  obtain ⟨rfl, rfl⟩ := Prod.mk.inj (Option.some.inj h)
  have h_ch := ch.isLt
  have h_dest := dest.isLt
  have h_c := c.isLt
  have h_hold := Machine.flagValue_le hold
  have h_confirm := Machine.flagValue_le confirm
  have h_pass := Machine.flagValue_le pass
  have h_limit := limit.isLt
  have hv : (pack [(0, 0x20), (8, ch.val), (14, dest.val), (17, c.val), (19, flagValue hold), (20, flagValue confirm), (21, flagValue pass), (24, limit.val)]).toNat = 32 + ch.val * 256 + dest.val * 16384 + c.val * 131072 + flagValue hold * 524288 + flagValue confirm * 1048576 + flagValue pass * 2097152 + limit.val * 16777216 := by
    rw [pack_toNat]; simp only [placed]; omega
  have hc : (pack [(0, 0x20), (8, ch.val), (14, dest.val), (17, c.val), (19, flagValue hold), (20, flagValue confirm), (21, flagValue pass), (24, limit.val)]).toNat % 256 = 0x20 := by omega
  simp only [decodeCommand, hc]
  have e_ch : fieldAt (pack [(0, 0x20), (8, ch.val), (14, dest.val), (17, c.val), (19, flagValue hold), (20, flagValue confirm), (21, flagValue pass), (24, limit.val)]) 8 64 = ch := fieldAt_of_value (by rw [hv]; omega)
  have e_dest : fieldAt (pack [(0, 0x20), (8, ch.val), (14, dest.val), (17, c.val), (19, flagValue hold), (20, flagValue confirm), (21, flagValue pass), (24, limit.val)]) 14 8 = dest := fieldAt_of_value (by rw [hv]; omega)
  have e_c : fieldAt (pack [(0, 0x20), (8, ch.val), (14, dest.val), (17, c.val), (19, flagValue hold), (20, flagValue confirm), (21, flagValue pass), (24, limit.val)]) 17 4 = c := fieldAt_of_value (by rw [hv]; omega)
  have e_hold : flagAt (pack [(0, 0x20), (8, ch.val), (14, dest.val), (17, c.val), (19, flagValue hold), (20, flagValue confirm), (21, flagValue pass), (24, limit.val)]) 19 = hold := flagAt_of_value (by rw [hv]; omega)
  have e_confirm : flagAt (pack [(0, 0x20), (8, ch.val), (14, dest.val), (17, c.val), (19, flagValue hold), (20, flagValue confirm), (21, flagValue pass), (24, limit.val)]) 20 = confirm := flagAt_of_value (by rw [hv]; omega)
  have e_pass : flagAt (pack [(0, 0x20), (8, ch.val), (14, dest.val), (17, c.val), (19, flagValue hold), (20, flagValue confirm), (21, flagValue pass), (24, limit.val)]) 21 = pass := flagAt_of_value (by rw [hv]; omega)
  have e_limit : fieldAt (pack [(0, 0x20), (8, ch.val), (14, dest.val), (17, c.val), (19, flagValue hold), (20, flagValue confirm), (21, flagValue pass), (24, limit.val)]) 24 256 = limit := fieldAt_of_value (by rw [hv]; omega)
  rw [e_ch, e_dest, e_c, e_hold, e_confirm, e_pass, e_limit]

theorem CommandWord.closeChannel (a : StationId) (ch : ChannelId) : CommandWord.Statement (.closeChannel a ch) := by
  rintro _ a' w h
  obtain ⟨rfl, rfl⟩ := Prod.mk.inj (Option.some.inj h)
  have h_ch := ch.isLt
  have hv : (pack [(0, 0x21), (8, ch.val)]).toNat = 33 + ch.val * 256 := by
    rw [pack_toNat]; simp only [placed]; omega
  have hc : (pack [(0, 0x21), (8, ch.val)]).toNat % 256 = 0x21 := by omega
  simp only [decodeCommand, hc]
  have e_ch : fieldAt (pack [(0, 0x21), (8, ch.val)]) 8 64 = ch := fieldAt_of_value (by rw [hv]; omega)
  rw [e_ch]

theorem CommandWord.retireStation (a : StationId) (t : StationId) : CommandWord.Statement (.retireStation a t) := by
  rintro _ a' w h
  obtain ⟨rfl, rfl⟩ := Prod.mk.inj (Option.some.inj h)
  have h_t := t.isLt
  have hv : (pack [(0, 0x22), (8, t.val)]).toNat = 34 + t.val * 256 := by
    rw [pack_toNat]; simp only [placed]; omega
  have hc : (pack [(0, 0x22), (8, t.val)]).toNat % 256 = 0x22 := by omega
  simp only [decodeCommand, hc]
  have e_t : fieldAt (pack [(0, 0x22), (8, t.val)]) 8 8 = t := fieldAt_of_value (by rw [hv]; omega)
  rw [e_t]

theorem CommandWord.forceRelease (a : StationId) (l : LockId) : CommandWord.Statement (.forceRelease a l) := by
  rintro _ a' w h
  obtain ⟨rfl, rfl⟩ := Prod.mk.inj (Option.some.inj h)
  have h_l := l.isLt
  have hv : (pack [(0, 0x23), (8, l.val)]).toNat = 35 + l.val * 256 := by
    rw [pack_toNat]; simp only [placed]; omega
  have hc : (pack [(0, 0x23), (8, l.val)]).toNat % 256 = 0x23 := by omega
  simp only [decodeCommand, hc]
  have e_l : fieldAt (pack [(0, 0x23), (8, l.val)]) 8 32 = l := fieldAt_of_value (by rw [hv]; omega)
  rw [e_l]

theorem CommandWord.setTick (a : StationId) : CommandWord.Statement (.setTick a) := by
  rintro _ a' w h
  obtain ⟨rfl, rfl⟩ := Prod.mk.inj (Option.some.inj h)
  rfl

theorem CommandWord.setEngine (a : StationId) (response : Fin 256) (retry : Fin 8) (burst : Fin 32) : CommandWord.Statement (.setEngine a response retry burst) := by
  rintro _ a' w h
  obtain ⟨rfl, rfl⟩ := Prod.mk.inj (Option.some.inj h)
  have h_response := response.isLt
  have h_retry := retry.isLt
  have h_burst := burst.isLt
  have hv : (pack [(0, 0x25), (8, response.val), (16, retry.val), (19, burst.val)]).toNat = 37 + response.val * 256 + retry.val * 65536 + burst.val * 524288 := by
    rw [pack_toNat]; simp only [placed]; omega
  have hc : (pack [(0, 0x25), (8, response.val), (16, retry.val), (19, burst.val)]).toNat % 256 = 0x25 := by omega
  simp only [decodeCommand, hc]
  have e_response : fieldAt (pack [(0, 0x25), (8, response.val), (16, retry.val), (19, burst.val)]) 8 256 = response := fieldAt_of_value (by rw [hv]; omega)
  have e_retry : fieldAt (pack [(0, 0x25), (8, response.val), (16, retry.val), (19, burst.val)]) 16 8 = retry := fieldAt_of_value (by rw [hv]; omega)
  have e_burst : fieldAt (pack [(0, 0x25), (8, response.val), (16, retry.val), (19, burst.val)]) 19 32 = burst := fieldAt_of_value (by rw [hv]; omega)
  rw [e_response, e_retry, e_burst]

theorem CommandWord.badCommand (a : StationId) (code : BitVec 8) : CommandWord.Statement (.badCommand a code) := by
  rintro hw a' w h
  obtain ⟨rfl, rfl⟩ := Prod.mk.inj (Option.some.inj h)
  have hlt := code.isLt
  have hv : (pack [(0, code.toNat)]).toNat % 256 = code.toNat := by
    rw [pack_toNat]; simp only [placed]; omega
  have hn : ∀ c ∈ commandCodes, code.toNat ≠ c.toNat := by
    intro c hc he
    have : code = c := BitVec.eq_of_toNat_eq he
    subst this
    simp [wellFormed, hc] at hw
  simp only [commandCodes, List.forall_mem_cons] at hn
  simp only [decodeCommand, hv]
  split <;> simp_all

theorem CommandWord.stagingWrite (a : StationId) (k : Fin 64) (w : Word) : CommandWord.Statement (.stagingWrite a k w) := by
  rintro _ a' w' ⟨⟩

theorem CommandWord.ringConsumed (a : StationId) (w : Word) : CommandWord.Statement (.ringConsumed a w) := by
  rintro _ a' w' ⟨⟩

theorem CommandWord.notifyPending (a : StationId) (w : Word) : CommandWord.Statement (.notifyPending a w) := by
  rintro _ a' w' ⟨⟩

theorem CommandWord.notifyEnable (a : StationId) (w : Word) : CommandWord.Statement (.notifyEnable a w) := by
  rintro _ a' w' ⟨⟩

theorem CommandWord.notifyDisarm (a : StationId) (w : Word) : CommandWord.Statement (.notifyDisarm a w) := by
  rintro _ a' w' ⟨⟩

theorem CommandWord.notifyLevels (a : StationId) (w : Word) : CommandWord.Statement (.notifyLevels a w) := by
  rintro _ a' w' ⟨⟩

theorem CommandWord.vectorBase (a : StationId) (w : Word) : CommandWord.Statement (.vectorBase a w) := by
  rintro _ a' w' ⟨⟩

theorem CommandWord.ack (a : StationId) : CommandWord.Statement (.ack a) := by
  rintro _ a' w' ⟨⟩

theorem CommandWord.endService (a : StationId) (w : Word) : CommandWord.Statement (.endService a w) := by
  rintro _ a' w' ⟨⟩

theorem CommandWord.confirmHeadWrite (a : StationId) (w : Word) : CommandWord.Statement (.confirmHeadWrite a w) := by
  rintro _ a' w' ⟨⟩

theorem CommandWord.faultRecordWrite (a : StationId) (w : Word) : CommandWord.Statement (.faultRecordWrite a w) := by
  rintro _ a' w' ⟨⟩

theorem CommandWord.waitLimits (a : StationId) (w : Word) : CommandWord.Statement (.waitLimits a w) := by
  rintro _ a' w' ⟨⟩

theorem CommandWord.registerWrite (t : WindowWord) (w : Word) : CommandWord.Statement (.registerWrite t w) := by
  rintro _ a' w' ⟨⟩

theorem CommandWord.partialOrUnmappedAccess (off : Fin 8192) (be : BitVec 4) (write : Bool) : CommandWord.Statement (.partialOrUnmappedAccess off be write) := by
  rintro _ a' w' ⟨⟩

theorem CommandWord.reset (supv : StationId) : CommandWord.Statement (.reset supv) := by
  rintro _ a' w' ⟨⟩

theorem CommandWord.tick : CommandWord.Statement .tick := by
  rintro _ a' w' ⟨⟩

theorem CommandWord.roomWaitTimerExpiry (a : StationId) : CommandWord.Statement (.roomWaitTimerExpiry a) := by
  rintro _ a' w' ⟨⟩

theorem CommandWord.waitTimerExpiry (a : StationId) : CommandWord.Statement (.waitTimerExpiry a) := by
  rintro _ a' w' ⟨⟩

theorem CommandWord.responseLimitExpiry : CommandWord.Statement .responseLimitExpiry := by
  rintro _ a' w' ⟨⟩

theorem CommandWord.copyCompletion (a : StationId) : CommandWord.Statement (.copyCompletion a) := by
  rintro _ a' w' ⟨⟩

theorem CommandWord.busGrant : CommandWord.Statement .busGrant := by
  rintro _ a' w' ⟨⟩

theorem CommandWord.brqReassert : CommandWord.Statement .brqReassert := by
  rintro _ a' w' ⟨⟩

theorem CommandWord.respComplete : CommandWord.Statement .respComplete := by
  rintro _ a' w' ⟨⟩

theorem CommandWord.respRetry : CommandWord.Statement .respRetry := by
  rintro _ a' w' ⟨⟩

theorem CommandWord.respFault : CommandWord.Statement .respFault := by
  rintro _ a' w' ⟨⟩

end Sys2Proof.Laws
end

