-- ==== Sys2Proof/Laws/Timers.lean ====
section
/-! SUPPORT. What the expiry of the due timers does to the timers: which room queue entries, lock waits and open cycles are
left; and what TICK and a CLK period are in terms of it. -/

namespace Sys2Proof.Machine

/-! ### The room queue -/

/-- An examination only takes entries from the head. -/
theorem examineAmong_suffix (q : List RoomEntry) (s : State) : (examineAmong q s).roomQueue <:+ q := by
  induction q generalizing s with
  | nil => simp [examineAmong]
  | cons e rest ih =>
    unfold examineAmong
    split
    · exact (ih _).trans (List.suffix_cons e rest)
    · simp

/-- A removal leaves only entries that were there and that it does not name. -/
theorem mem_removeWaiting {p : RoomEntry → Bool} {o : SendOutcome} {sent : Bool} {s : State} {e : RoomEntry}
    (h : e ∈ (removeWaiting p o sent s).roomQueue) : e ∈ s.roomQueue ∧ p e = false := by
  have key : e ∈ s.roomQueue.filter fun e => !p e := by
    unfold removeWaiting at h
    dsimp only at h
    split at h
    · have h' := (examineAmong_suffix _ _).subset h
      simpa using h'
    · simpa using h
  simpa using key

theorem roomTimerDue_iff (a : StationId) (s : State) :
    roomTimerDue a s = true ↔ ∃ e ∈ s.roomQueue, e.station = a ∧ e.timer = some 0 := by
  simp [roomTimerDue]

/-- The entries left by the expiry of one station's timer were there, and none of them is a due one of that station. -/
theorem mem_expireRoomWait {a : StationId} {s : State} {e : RoomEntry} (h : e ∈ (expireRoomWait a s).roomQueue) :
    e ∈ s.roomQueue ∧ ¬ (e.station = a ∧ e.timer = some 0) := by
  unfold expireRoomWait at h
  split at h
  · obtain ⟨h1, h2⟩ := mem_removeWaiting h
    exact ⟨h1, fun h3 => by simp [h3.1] at h2⟩
  · rename_i hn
    exact ⟨h, fun h3 => hn ((roomTimerDue_iff a s).mpr ⟨e, h, h3⟩)⟩

/-- The entries left by the expiries of these stations' timers were there, and none of them is a due one of a station
visited. -/
theorem mem_expireRoomWaits {order : List StationId} {s : State} {e : RoomEntry}
    (h : e ∈ (expireRoomWaits order s).roomQueue) : e ∈ s.roomQueue ∧ ¬ (e.station ∈ order ∧ e.timer = some 0) := by
  induction order generalizing s with
  | nil => exact ⟨h, by simp⟩
  | cons a rest ih =>
    obtain ⟨h1, h2⟩ := ih (s := expireRoomWait a s) h
    obtain ⟨h3, h4⟩ := mem_expireRoomWait h1
    refine ⟨h3, fun ⟨h5, h6⟩ => ?_⟩
    rcases List.mem_cons.mp h5 with h5 | h5
    · exact h4 ⟨h5, h6⟩
    · exact h2 ⟨h5, h6⟩

theorem mem_expiryOrder {s : State} {e : RoomEntry} (h : e ∈ s.roomQueue) (ht : e.timer = some 0) :
    e.station ∈ expiryOrder s := by
  have hd : e.station ∈ dueRoomWaits s := List.mem_map_of_mem (List.mem_filter.mpr ⟨h, by simp [ht]⟩)
  unfold expiryOrder
  split
  · exact hd
  · exact List.mem_append_right _ hd

/-! ### Lock waits -/

theorem waitTimerDue_iff (a : StationId) (s : State) :
    waitTimerDue a s = true ↔ ∃ w ∈ (s.st a).wait, w.timer = some 0 := by
  unfold waitTimerDue
  cases (s.st a).wait <;> simp

/-- The wait slot of a station after the expiries of these stations' timers. -/
theorem expireLockWaits_wait (order : List StationId) (s : State) (b : StationId) :
    ((expireLockWaits order s).st b).wait = (if b ∈ order ∧ waitTimerDue b s = true then none else (s.st b).wait) ∧
      ((expireLockWaits order s).st b).lastWait =
        if b ∈ order ∧ waitTimerDue b s = true then .timeout else (s.st b).lastWait := by
  induction order generalizing s with
  | nil => simp [expireLockWaits]
  | cons a rest ih =>
    have e : expireLockWaits (a :: rest) s = expireLockWaits rest (expireLockWait a s) := rfl
    obtain ⟨h1, h2⟩ := ih (expireLockWait a s)
    rw [e, h1, h2]
    by_cases hb : b = a
    · subst hb
      by_cases hd : waitTimerDue b s = true
      · obtain ⟨w, hw, -⟩ := (waitTimerDue_iff b s).mp hd
        have hw' : (s.st b).wait = some w := hw
        have h3 : ((expireLockWait b s).st b).wait = none ∧ ((expireLockWait b s).st b).lastWait = .timeout := by
          simp [expireLockWait, hd, leaveWait, hw', endWait]
        have h4 : waitTimerDue b (expireLockWait b s) = false := by simp [waitTimerDue, h3.1]
        simp [hd, h3, h4]
      · have h3 : expireLockWait b s = s := by simp [expireLockWait, hd]
        simp [h3, hd]
    · have h3 : (expireLockWait a s).st b = s.st b := by simp [hb]
      have h4 : waitTimerDue b (expireLockWait a s) = waitTimerDue b s := by unfold waitTimerDue; rw [h3]
      simp [h3, h4, hb]

/-! ### The open cycle -/

/-- A delivery that faults leaves no cycle open. -/
theorem faultDelivery_not_transfer (d : Delivery) (code : FaultCode) (addr : Word) (s : State) (d' : Delivery)
    (c' : Cycle) : (faultDelivery d code addr s).engine ≠ .transfer d' c' := by
  have key : ∀ t : State, (releaseToIdle t).engine ≠ .transfer d' c' := by
    intro t
    unfold releaseToIdle startIfIdle
    split <;> simp
  exact key _

/-- A due cycle is ended, and any other stays as it is. -/
theorem expireResponse_engine (s : State) :
    (∀ d c, s.engine = .transfer d c → c.timer = 0 → ∀ d' c', (expireResponse s).engine ≠ .transfer d' c') ∧
      ((∀ d c, s.engine = .transfer d c → c.timer ≠ 0) → expireResponse s = s) := by
  constructor
  · intro d c h ht
    simp only [expireResponse, h, ht, if_true]
    exact faultDelivery_not_transfer _ _ _ _
  · intro h
    unfold expireResponse
    split
    · exact if_neg (h _ _ ‹_›)
    · rfl

/-! ### All of them -/

/-- The room queue after the due timers have expired: no entry is new, and none is due. -/
theorem mem_expireDue {s : State} {e : RoomEntry} (h : e ∈ (expireDue s).roomQueue) :
    e ∈ s.roomQueue ∧ e.timer ≠ some 0 := by
  have h' : e ∈ (expireRoomWaits (expiryOrder s) s).roomQueue := by simpa [expireDue] using h
  obtain ⟨h1, h2⟩ := mem_expireRoomWaits h'
  exact ⟨h1, fun ht => h2 ⟨mem_expiryOrder h1 ht, ht⟩⟩

/-- The wait slots after the due timers have expired. -/
theorem expireDue_wait (s : State) (a : StationId) :
    ((expireDue s).st a).wait = (if waitTimerDue a s = true then none else (s.st a).wait) ∧
      ((expireDue s).st a).lastWait = if waitTimerDue a s = true then .timeout else (s.st a).lastWait := by
  have e : waitTimerDue a (expireRoomWaits (expiryOrder s) s) = waitTimerDue a s := by simp [waitTimerDue]
  have k := expireLockWaits_wait (List.finRange 8) (expireRoomWaits (expiryOrder s) s) a
  rw [e] at k
  simpa [expireDue] using k

/-- The engine after the due timers have expired: as it was, or with the due cycle ended. -/
theorem expireDue_engine (s : State) :
    ((expireDue s).engine = s.engine ∧ ∀ d c, s.engine = .transfer d c → c.timer ≠ 0) ∨
      ((∃ d c, s.engine = .transfer d c ∧ c.timer = 0) ∧ ∀ d c, (expireDue s).engine ≠ .transfer d c) := by
  have e : (expireLockWaits (List.finRange 8) (expireRoomWaits (expiryOrder s) s)).engine = s.engine := by simp
  have k := expireResponse_engine (expireLockWaits (List.finRange 8) (expireRoomWaits (expiryOrder s) s))
  rw [e] at k
  by_cases h : ∀ d c, s.engine = .transfer d c → c.timer ≠ 0
  · exact .inl ⟨by rw [expireDue, k.2 h, e], h⟩
  · push Not at h
    obtain ⟨d, c, h1, h2⟩ := h
    exact .inr ⟨⟨d, c, h1, h2⟩, k.1 d c h1 h2⟩

/-! ### TICK and the CLK period -/

theorem exec_tick (s : State) : exec .tick s = .next (tickAll (expireDue s)) := rfl

theorem clkPeriod_tick {s : State} (h : s.tickDiv ≤ s.tickCount + 1) :
    clkPeriod s = expireDue (tickAll (expireDue s)) := by
  unfold clkPeriod
  dsimp only
  rw [if_pos (by simpa using h)]

theorem clkPeriod_count {s : State} (h : s.tickCount + 1 < s.tickDiv) :
    clkPeriod s = { expireDue s with tickCount := s.tickCount + 1 } := by
  unfold clkPeriod
  dsimp only
  rw [if_neg (by simpa using h)]
  simp

/-- The tick counter is read by no other part of the state. -/
@[simp] theorem tickCount_reads (s : State) (n : Nat) :
    (∀ a, ({ s with tickCount := n } : State).st a = s.st a) ∧
      (({ s with tickCount := n } : State).NoTimerDue ↔ s.NoTimerDue) := ⟨fun _ => rfl, Iff.rfl⟩

theorem afterAll_append (cs ds : List Instr) (s : State) : afterAll (cs ++ ds) s = afterAll ds (afterAll cs s) := by
  simp [afterAll]

theorem afterAll_roomWaitTimerExpiry (order : List StationId) (s : State) :
    afterAll (order.map .roomWaitTimerExpiry) s = expireRoomWaits order s := by
  induction order generalizing s with
  | nil => rfl
  | cons a rest ih => exact ih _

theorem afterAll_waitTimerExpiry (order : List StationId) (s : State) :
    afterAll (order.map .waitTimerExpiry) s = expireLockWaits order s := by
  induction order generalizing s with
  | nil => rfl
  | cons a rest ih => exact ih _

end Sys2Proof.Machine
end

