-- ==== Sys2Proof/Laws/Words.lean ====
section
/-! SUPPORT. Laws of the words a read returns: the fields of a packed word, and the ranges of the codes in them. -/

namespace Sys2Proof.Machine

/-- A field of a packed word is the bits hi to lo of the sum of its fields. -/
theorem bits_pack (fields : List (Nat × Nat)) (hi lo : Nat) :
    bits (pack fields) hi lo = placed fields % 2 ^ 32 / 2 ^ lo % 2 ^ (hi + 1 - lo) := by
  simp [bits, pack, BitVec.extractLsb'_toNat, Nat.shiftRight_eq_div_pow]

/-- A bit of a packed word is that bit of the sum of its fields. -/
theorem getLsbD_pack (fields : List (Nat × Nat)) {i : Nat} (h : i < 32) :
    (pack fields).getLsbD i = true ↔ placed fields / 2 ^ i % 2 = 1 := by
  rw [pack, BitVec.getLsbD_ofNat, Nat.testBit_eq_decide_div_mod_eq]; simp [h]

/-- The word that holds one value in its low bits. -/
theorem pack_one {n : Nat} (v : BitVec n) : pack [(0, v.toNat)] = v.setWidth 32 := by
  apply BitVec.eq_of_toNat_eq
  simp [pack, placed, BitVec.toNat_setWidth]

theorem StationState.code_le (x : StationState) : x.code ≤ 2 := by cases x <;> decide
theorem ResultCode.code_le (x : ResultCode) : x.code ≤ 27 := by cases x <;> decide
theorem SendState.code_le (x : SendState) : x.code ≤ 2 := by cases x <;> simp [SendState.code]
theorem SendOutcome.code_le (x : SendOutcome) : x.code ≤ 6 := by cases x <;> decide
theorem WaitOutcome.code_le (x : WaitOutcome) : x.code ≤ 3 := by cases x <;> decide
theorem EndOutcome.code_le (x : EndOutcome) : x.code ≤ 3 := by cases x <;> decide
theorem LockState.code_le (x : LockState) : x.code ≤ 3 := by cases x <;> simp [LockState.code]
theorem RingState.code_le (x : RingState) : x.code ≤ 4 := by cases x <;> decide
theorem EngineState.code_le (x : EngineState) : x.code ≤ 2 := by cases x <;> simp [EngineState.code]
theorem ChannelState.code_le (x : ChannelState) : x.code ≤ 1 := by cases x <;> decide
theorem FaultCode.code_le (x : FaultCode) : x.code ≤ 8 := by cases x <;> decide

end Sys2Proof.Machine
end

