-- ==== Sys2Proof/Tests/Slice0.lean ====
section
/-! SUPPORT. Tests: the well-formedness checks, decoding of words written out from Tables 10-1, 10-2 and 10-4, one step of
each command, and for each statement a state and operands that meet its hypotheses. Expected values are the spec's: its
rules, and the worked examples of sections 1.9, 7.10 and 8.8 where a comment names one. -/

namespace Sys2Proof.Tests

-- One test at a time: many kernel evaluations at once take more threads than the check allows.
set_option Elab.async false

open Sys2Proof.Machine

/-! ### Helpers -/

/-- The next state `exec` answers, and the state itself where it answers none. -/
def after (i : Instr) (s : State) : State :=
  match exec i s with
  | .next t => t
  | .fault _ => s
  | .refused _ => s

/-- The state after a step on an empty queue. -/
def idled (s : State) : State :=
  match step s with
  | .next t => t
  | .fault _ => s
  | .refused _ => s

/-- `exec` answers a next state. -/
def answersNext (i : Instr) (s : State) : Bool :=
  match exec i s with
  | .next _ => true
  | .fault _ => false
  | .refused _ => false

/-- The next state `serveAccess` answers. -/
def served (x : BusAccess) (s : State) : State :=
  match serveAccess x s with
  | .next t => t
  | .fault _ => s
  | .refused _ => s

theorem exec_eq_after {i : Instr} {s : State} (h : answersNext i s = true) : exec i s = .next (after i s) := by
  unfold answersNext at h
  unfold after
  split at h <;> simp_all

/-- Stations 0 to 3 ONLINE after their ATTACH, station 0 the supervisor. -/
def small : State := ([0, 1, 2, 3] : List StationId).foldl (fun s a => s.modSt a StationRec.attached) State.reset

/-- Channel 1 is open to class 2 of station 1. -/
def routed : State := small.modChan 1 fun _ =>
  { state := .opened, dest := 1, cls := 2, mask := 0xFF, hold := true, confirm := true, pass := true, limit := 2, count := 0 }

/-- Station 0 holds lock 5. -/
def holding : State := routed.setLock 5 { state := .held 0, waiters := [] }

/-- Station 2 waits for lock 5, its timer due. -/
def waiting : State := (holding.setLock 5 { state := .held 0, waiters := [2] }).modSt 2 fun r =>
  { r with wait := some { lock := 5, timer := some 0 } }

/-- A post of 9 words of station 0 on channel 1. -/
def postA (lock : Option LockId) : Post :=
  { channel := 1, length := 9, cellsNeeded := 2, dest := 1, cls := 2, confirm := true, passLock := lock, tag := 7, sequence := 0 }

/-- The message of `postA`. -/
def messageA (st : MessageState) (lock : Option LockId) : Message :=
  { source := 0, channel := 1, dest := 1, cls := 2, length := 9, tag := 7, sequence := 0, carriedLock := lock
    confirm := true, cells := [0, 1], state := st }

/-- `messageA` exists on descriptor 0. -/
def existing (st : MessageState) (lock : Option LockId) : State :=
  { (routed.modChan 1 fun e => { e with count := 1 }).setMsg 0 (some (messageA st lock)) with
    freeDescs := State.reset.freeDescs.drop 1, freeCells := State.reset.freeCells.drop 2 }

/-- Station 0's copy of `messageA` is in flight, staging word 8 holding 0xBEEF. -/
def copying (lock : Option LockId) : State :=
  (setLockState lock (.pledged 0) (existing .filling lock)).modSt 0 fun r =>
    { r with send := .copying (postA lock) 0, staging := put r.staging 8 0xBEEF }

/-- `messageA` is queued at station 1. -/
def queued (lock : Option LockId) : State :=
  (setLockState lock (.carried 0) (existing .queued lock)).modSt 1 fun r => r.setQueue 2 [0]

/-- `messageA` is in station 1's read slot. -/
def reading : State := (existing .reading none).modSt 1 fun r =>
  { r with readSlot := some { desc := 0, header0 := headerWord0 (messageA .queued none), header1 := 0 } }

/-- Station 0's post waits for a descriptor, its timer due. -/
def awaiting : State :=
  { (routed.modChan 1 fun e => { e with count := 1 }).modSt 0 fun r => { r with send := .awaitRoom (postA none) } with
    freeDescs := [], roomQueue := [{ station := 0, channel := 1, cellsNeeded := 2, timer := some 0 }] }

/-- A ring of 4 slots at 0x0002_0000 with index address 0x0002_1000. -/
def ringA (st : RingState) (produced consumed : Half) : Ring :=
  { base := 0x20000, slots := 4, indexAddr := 0x21000, latchedBase := 0x20000, latchedSlots := 4, latchedIndex := 0x21000
    state := st, produced, consumed }

/-- `messageA` is queued at station 1, whose ring is `g`. -/
def ringed (g : Ring) : State := (queued none).modSt 1 fun r => { r with ring := g }

/-- The delivery of `messageA` to slot 3 of that ring. -/
def deliveryA (next : DeliveryWrite) : Delivery :=
  { station := 1, cls := 2, desc := 0, slot := 3, header0 := headerWord0 (messageA .queued none)
    header1 := headerWord1 (messageA .queued none), next, retries := 0 }

/-- The engine in `e` with that delivery, the ring ACTIVE with a fill of 3. -/
def engaged (e : EngineState) : State :=
  { (ringed (ringA .active 3 0)).setMsg 0 (some (messageA .delivering none)) with engine := e }

/-- The engine owns the bus with `next` open, `timer` ticks left. -/
def owning (next : DeliveryWrite) (timer : Nat) : State :=
  engaged (.transfer (deliveryA next) { addr := 0x20318, data := 0, timer })

/-! ### Well-formedness -/

theorem test_wellFormed_refuses_badCommand_of_a_command : wellFormed (.badCommand 0 0x25) = false := by decide +kernel
theorem test_wellFormed_refuses_registerWrite_of_an_own_row : wellFormed (.registerWrite (.aperture 3 .vectorBase) 0) = false := by
  decide +kernel
theorem test_wellFormed_refuses_a_whole_mapped_access : wellFormed (.partialOrUnmappedAccess 0x1A5 15 false) = true ∧
    wellFormed (.partialOrUnmappedAccess 0x005 15 false) = false := by decide +kernel
theorem test_wellFormed_admits : wellFormed (.badCommand 0 0x11) = true ∧
    wellFormed (.registerWrite (.global .tickConfig) 0) = true ∧
    wellFormed (.partialOrUnmappedAccess 0x005 7 true) = true := by decide +kernel

/-! ### Decoding: words written out from Table 10-4, accesses from Tables 10-1 and 10-2 -/

theorem test_decode_lifecycle : decodeCommand 3 0x01 = .attach 3 ∧ decodeCommand 3 0xFFFFFF02 = .retire 3 ∧
    decodeCommand 0 0x00000522 = .retireStation 0 5 ∧
      decodeCommand 0 0x00000026 = .badCommand 0 0x26 := by decide +kernel
-- channel 40 = 101000, length 100 = 1100100, pass 1, lock 9 = 01001: 01001 1 1100100 101000 00000011
theorem test_decode_sending : decodeCommand 3 0b01001_1_1100100_101000_00000011 = .post 3 40 100 true 9 ∧
    decodeCommand 3 0x04 = .cancelPost 3 := by decide +kernel
theorem test_decode_taking : decodeCommand 3 0x0305 = .take 3 3 ∧ decodeCommand 3 0x06 = .takeAny 3 ∧
    decodeCommand 3 0x07 = .release 3 ∧ decodeCommand 3 0x00FF020D = .setQlimit 3 2 255 ∧
      decodeCommand 3 0x0C = .popConfirm 3 := by
  decide +kernel
theorem test_decode_locks : decodeCommand 3 0x1F08 = .acquire 3 31 ∧ decodeCommand 3 0x1009 = .tryLock 3 16 ∧
    decodeCommand 3 0x010A = .releaseLock 3 1 ∧ decodeCommand 3 0x0B = .cancelWait 3 ∧
    decodeCommand 3 0x0923 = .forceRelease 3 9 := by decide +kernel
-- limit 8, PASS 1, CONFIRM 0, HOLD 1, class 2, destination 5, channel 40
theorem test_decode_channels : decodeCommand 0 0b00001000_00_1_0_1_10_101_101000_00100000 =
      .openChannel 0 40 5 2 true false true 8 ∧ decodeCommand 0 0x2821 = .closeChannel 0 40 := by decide +kernel
-- burst limit 16, retry budget 5, response limit 200
theorem test_decode_rings_and_engine : decodeCommand 3 0x0E = .enableRing 3 ∧ decodeCommand 3 0x0F = .disableRing 3 ∧
    decodeCommand 3 0x10 = .resumeRing 3 ∧ decodeCommand 0 0b10000_101_11001000_00100101 = .setEngine 0 200 5 16 ∧
    decodeCommand 0 0x24 = .setTick 0 := by decide +kernel
-- aperture 2 starts at byte 0x1000, word 0x400: NOTIFY_LEVELS 0x108C, staging word 5 0x1114, ACK 0x1094, RESULT 0x1004;
-- TICK_CONFIG is byte 0x4014, word 0x1005
theorem test_decode_access : decodeAccess ⟨0x423, 15, true, 9⟩ = some (.notifyLevels 2 9) ∧
    decodeAccess ⟨0x445, 15, true, 9⟩ = some (.stagingWrite 2 5 9) ∧
    decodeAccess ⟨0x425, 15, false, 0⟩ = some (.ack 2) ∧
    decodeAccess ⟨0x401, 15, false, 0⟩ = none ∧
    decodeAccess ⟨0x1005, 15, true, 9⟩ = some (.registerWrite (.global .tickConfig) 9) ∧
    decodeAccess ⟨0x425, 7, false, 0⟩ = some (.partialOrUnmappedAccess 0x425 7 false) := by decide +kernel
-- ATTACH written to COMMAND of aperture 2, whose word number is 0x400
theorem test_encode_access : encodeAccess (.attach 2) = some ⟨0x400, 15, true, 1⟩ := by decide +kernel
-- a plain read of RESULT is answered COMPLETE with its word, and not answered while the device owns the bus (R178, R179)
theorem test_plainRead :
    served ⟨0x401, 15, false, 0⟩ (after (.attach 2) State.reset) =
      { after (.attach 2) State.reset with answer := some { resp := .complete, data := some 0x0100 } } ∧
    served ⟨0x401, 15, false, 0⟩ { owning .header0 8 with answer := some { resp := .complete, data := none } } = owning .header0 8 := by
  decide +kernel
theorem test_resp : (after (.attach 2) State.reset).resp = 1 ∧
    (after (.partialOrUnmappedAccess 8191 15 true) State.reset).resp = 3 ∧
    State.reset.resp = 0 := by decide +kernel
theorem test_no_table_word : decodeTableWord 32 1 = none ∧
    State.reset.withFetchWord 32 1 = State.reset := by decide +kernel

/-! ### Commands: lifecycle, sending, taking, confirmations -/

theorem test_attach : ((after (.attach 5) State.reset).st 5).state = .online ∧
    ((after (.attach 5) State.reset).st 5).vectorBase = 0x40 ∧
    readWord (.aperture 5 .result) (after (.attach 5) State.reset) = 0x0100 := by decide +kernel
theorem test_attach_online_is_in_use : readWord (.aperture 1 .result) (after (.attach 1) small) = 0x0107 := by decide +kernel
theorem test_retire_discards : ((after (.retire 1) (queued (some 5))).st 1).state = .offline ∧
    ((after (.retire 1) (queued (some 5))).chan 1).count = 0 ∧
      ((after (.retire 1) (queued (some 5))).lock 5).state = .free ∧
    ((after (.retire 1) (queued (some 5))).st 0).confirms = [{ channel := 1, sequence := 0, outcome := .discarded }] := by
  decide +kernel
theorem test_retireStation : ((after (.retireStation 0 2) small).st 2).state = .offline ∧
    readWord (.aperture 0 .result) (after (.retireStation 0 2) small) = 0x2200 := by decide +kernel
theorem test_badCommand : readWord (.aperture 6 .result) (after (.badCommand 6 0xFF) small) = 0xFF04 := by decide +kernel
theorem test_post_pledges_and_copies : ((after (.post 0 1 64 true 5) holding).lock 5).state = .pledged 0 ∧
    (after (.post 0 1 64 true 5) holding).freeCells.length = 1016 ∧
      ((after (.post 0 1 64 true 5) holding).chan 1).count = 1 := by
  decide +kernel
theorem test_post_waits_behind_others : readWord (.aperture 2 .result) (after (.post 2 1 0 false 0) awaiting) = 0x0301 ∧
    (after (.post 2 1 0 false 0) awaiting).roomQueue.map (·.station) = [0, 2] := by decide +kernel
theorem test_cancelPost : ((after (.cancelPost 0) awaiting).st 0).send = .idle ∧
    readWord (.aperture 0 .sendResult) (after (.cancelPost 0) awaiting) = 0x50000 ∧
    ((after (.cancelPost 0) awaiting).st 0).pendingFlags = 0 := by decide +kernel
theorem test_stagingWrite : entry ((after (.stagingWrite 6 63 9) small).st 6).staging 63 = 9 := by decide +kernel
theorem test_stagingWrite_collides : ((after (.stagingWrite 0 12 9) (copying none)).st 0).fault =
    some { code := .stagingCollision, detail := 12 } := by decide +kernel
theorem test_copyCompletion : ((after (.copyCompletion 0) (copying (some 5))).st 1).queue 2 = [0] ∧
    ((after (.copyCompletion 0) (copying (some 5))).lock 5).state = .carried 0 ∧
    (after (.copyCompletion 0) (copying (some 5))).cellStore = [(8, 0xBEEF)] := by decide +kernel
theorem test_copyCompletion_destination_gone :
    ((after (.copyCompletion 0) ((copying (some 5)).modSt 1 fun _ => StationRec.reset)).lock 5).state = .held 0 := by
  decide +kernel
theorem test_roomWaitTimerExpiry : ((after (.roomWaitTimerExpiry 0) awaiting).st 0).pendingFlags = 0x20 ∧
    ((after (.roomWaitTimerExpiry 0) awaiting).chan 1).count = 0 := by decide +kernel
theorem test_take_passes_the_lock : ((after (.take 1 2) (queued (some 5))).lock 5).state = .held 1 ∧
    readWord (.aperture 1 .readHeader0) (after (.take 1 2) (queued (some 5))) = 0b1_000000_1_00101_1_000001_000_10_0001001 := by
  decide +kernel
theorem test_takeAny : ((after (.takeAny 1) (queued none)).st 1).queue 2 = [] ∧
    readWord (.aperture 2 .result) (after (.takeAny 2) (queued none)) = 0x060E := by decide +kernel
theorem test_release : (after (.release 1) reading).freeCells.drop 1022 = [0, 1] ∧
    ((after (.release 1) reading).st 0).pendingFlags = 0x40 := by decide +kernel
theorem test_setQlimit : ((after (.setQlimit 1 2 1) (queued none)).st 1).limit 2 = 1 ∧
    ((after (.setQlimit 1 2 0) (queued none)).st 1).limit 2 = 32 := by decide +kernel
theorem test_popConfirm : readWord (.aperture 0 .result) (after (.popConfirm 0) small) = 0x0C0E := by decide +kernel
theorem test_confirmHeadWrite : ((after (.confirmHeadWrite 0 0)
    (small.modSt 0 fun r => { r with confirmOverflow := true })).st 0).confirmOverflow = false := by decide +kernel

/-- The start of section 1.9: 3 free cells, 40 free descriptors, stations 2, 5 and 1 waiting for 5, 1 and 7 cells, and a
64-word message in station 3's read slot. -/
def crowded : State :=
  let wait (a : StationId) (len cells : Nat) (s : State) : State :=
    { s.modSt a fun r => { r with state := .online, send := .awaitRoom { postA none with length := len, cellsNeeded := cells } } with
      roomQueue := s.roomQueue ++ [{ station := a, channel := 1, cellsNeeded := cells, timer := none }] }
  wait 1 52 7 (wait 5 6 1 (wait 2 40 5
    ({ (routed.setMsg 200 (some { messageA .reading none with length := 64, cells := [0, 1, 2, 3, 4, 5, 6, 7] })).modSt 3 fun r =>
        { r with readSlot := some { desc := 200, header0 := 0, header1 := 0 } } with
      freeCells := [8, 9, 10], freeDescs := State.reset.freeDescs.take 40 })))

-- section 1.9, event 1: stations 2 and 5 are granted, station 1's 7 cells do not fit 5
theorem test_release_cascade : ((after (.release 3) crowded).roomQueue.map (·.station)) = [1] ∧
    (after (.release 3) crowded).freeCells.length = 5 ∧ (after (.release 3) crowded).freeDescs.length = 39 ∧
    ((after (.release 3) crowded).st 5).send.isCopying = true := by decide +kernel

/-! ### Commands: locks and channels -/

theorem test_acquire_waits : readWord (.aperture 1 .result) (after (.acquire 1 5) waiting) = 0x0801 ∧
    ((after (.acquire 1 5) waiting).lock 5).waiters = [2, 1] := by decide +kernel
theorem test_tryLock : readWord (.aperture 1 .result) (after (.tryLock 1 5) waiting) = 0x0915 ∧
    ((after (.tryLock 1 6) waiting).lock 6).state = .held 1 := by decide +kernel
theorem test_releaseLock : ((after (.releaseLock 0 5) waiting).lock 5) = { state := .held 2, waiters := [] } ∧
    ((after (.releaseLock 0 5) waiting).st 2).lastWait = .granted := by decide +kernel
theorem test_cancelWait : ((after (.cancelWait 2) waiting).lock 5) = { state := .held 0, waiters := [] } ∧
    ((after (.cancelWait 2) waiting).st 2).pendingFlags = 0 := by decide +kernel
theorem test_forceRelease : ((after (.forceRelease 0 5) waiting).st 0).fault = some { code := .lockRevoked, detail := 5 } ∧
    ((after (.forceRelease 0 5) waiting).lock 5).state = .held 2 := by decide +kernel
theorem test_waitTimerExpiry : ((after (.waitTimerExpiry 2) waiting).st 2).lastWait = .timeout ∧
    ((after (.waitTimerExpiry 2) waiting).st 2).pendingFlags = 0x10 := by decide +kernel
theorem test_openChannel : ((after (.openChannel 0 63 7 3 true false true 255)
    (small.modSt 0 fun r => { r with supOperand := 0x82 })).chan 63) =
      { state := .opened, dest := 7, cls := 3, mask := 0x82, hold := true, confirm := false, pass := true, limit := 255
        count := 0 } := by decide +kernel
theorem test_closeChannel : readWord (.aperture 0 .sendResult) (after (.closeChannel 0 1) awaiting) = 0x60000 ∧
    (after (.closeChannel 0 1) awaiting).roomQueue = [] ∧
      ((after (.closeChannel 0 1) awaiting).chan 1).state = .closed := by
  decide +kernel

/-! ### Commands: rings and the engine. Section 7.10 -/

/-- The rings of section 7.10 with descriptor 40 queued in class 1 of station 2 (4 words, cell 5) and descriptor 91 in class
0 of station 6 (10 words, cells 6 and 7); burst limit 2, retry budget 1. -/
def worked710 (e : EngineState) : State :=
  let m (a : StationId) (c : ClassId) (len : Nat) (cells : List CellId) : Message :=
    { messageA .queued none with dest := a, cls := c, length := len, cells }
  { (((small.setMsg 40 (some (m 2 1 4 [5]))).setMsg 91 (some (m 6 0 10 [6, 7]))).modSt 2 fun r =>
        { r.setQueue 1 [40] with ring := ringA .active 3 0 }).modSt 6 fun r =>
      { r.setQueue 0 [91] with
        state := .online
        ring := { base := 0x80000, slots := 8, indexAddr := 0x7FFFC, latchedBase := 0x80000, latchedSlots := 8
                  latchedIndex := 0x7FFFC, state := .active, produced := 0, consumed := 0 } } with
    engine := e, burstLimit := 2, retryBudget := 1 }

/-- The delivery for station 2, to slot 3; the one for station 6, to slot 0. -/
def delivery40 (next : DeliveryWrite) : Delivery :=
  { station := 2, cls := 1, desc := 40, slot := 3, header0 := 0, header1 := 0, next, retries := 0 }
/-- The delivery for station 6, to slot 0. -/
def delivery91 (next : DeliveryWrite) : Delivery :=
  { station := 6, cls := 0, desc := 91, slot := 0, header0 := 0, header1 := 0, next, retries := 0 }

/-- The byte address of the open cycle of an engine that owns the bus. -/
def cycleAddr (s : State) : Option Nat := s.masterCycle.map fun p => 4 * p.a.toNat

-- event 1: the search from pointer 7 chooses station 2
theorem test_start_of_section_7_10 : ((startIfIdle (worked710 .idle)).engine.delivery.map fun d => (d.station, d.desc, d.slot)) =
      some (2, 40, 3) ∧ (startIfIdle (worked710 .idle)).rrPointer = 2 := by decide +kernel
-- event 3: header word 0 goes to 0x0002_0318
theorem test_busGrant : cycleAddr (after .busGrant (worked710 (.busWait (delivery40 .header0)))) = some 0x20318 := by
  decide +kernel
theorem test_busGrant_in_the_gap :
    (after .busGrant { worked710 (.busWait (delivery40 .header0)) with gap := true }).bown = false := by decide +kernel
theorem test_brqReassert : ({ worked710 (.busWait (delivery40 .header0)) with gap := true } : State).brq = false ∧
    (after .brqReassert { worked710 (.busWait (delivery40 .header0)) with gap := true }).brq = true := by decide +kernel
-- R124, R127: a delivery started within the gap waits it out with BRQ deasserted, and the grant that still stands is not taken
theorem test_start_within_the_gap :
    let t := after (.copyCompletion 0) { (copying none).modSt 1 (fun r => { r with ring := ringA .active 3 0 }) with gap := true }
    t.engine.delivery.isSome = true ∧ t.brq = false ∧ (after .busGrant t).bown = false ∧
      (after .busGrant (after .brqReassert t)).bown = true := by decide +kernel
-- events 4 to 10: payload word 0 at 0x0002_0320, the index write of 4 to 0x0002_1000
theorem test_respComplete_writes : cycleAddr (after .respComplete (worked710 (.transfer (delivery40 .header1) ⟨0, 0, 8⟩))) = some 0x20320 ∧
    (after .respComplete (worked710 (.transfer (delivery40 (.payload 3)) ⟨0, 0, 8⟩))).masterCycle =
      some { a := 0x8400, d := 4, be := 15, rw := false } := by
  decide +kernel
-- event 10: station 2's ring is STALLED, and the engine keeps the bus for station 6 at 0x0008_0000
theorem test_respComplete_completes :
    let t := after .respComplete (worked710 (.transfer (delivery40 .index) ⟨0, 0, 8⟩))
    (t.st 2).ring = ringA .stalled 4 0 ∧ (t.st 2).pendingFlags = 2 ∧ cycleAddr t = some 0x80000 ∧ t.burst = 1 ∧
      t.rrPointer = 6 := by
  decide +kernel
-- event 11
theorem test_respRetry : (after .respRetry (worked710 (.transfer (delivery91 .header0) ⟨0x80000, 0, 8⟩))).engine =
      .busWait { delivery91 .header0 with retries := 1 } ∧
    (after .respRetry (worked710 (.transfer (delivery91 .header0) ⟨0x80000, 0, 8⟩))).brq = false := by decide +kernel
-- "Had the retry budget been 0"
theorem test_respRetry_beyond_the_budget :
    ((after .respRetry { worked710 (.transfer (delivery91 .header0) ⟨0x80000, 0, 8⟩) with retryBudget := 0 }).st 6).fault =
      some { code := .ringRetryExhausted, detail := 0x80000 } := by decide +kernel
-- event 14
theorem test_respFault : (((after .respFault (worked710 (.transfer (delivery91 (.payload 0)) ⟨0x80008, 0, 8⟩))).st 6).fault =
      some { code := .ringBusFault, detail := 0x80008 }) ∧
    ((after .respFault (worked710 (.transfer (delivery91 (.payload 0)) ⟨0x80008, 0, 8⟩))).st 6).ring.state = .faulted := by
  decide +kernel
theorem test_responseLimitExpiry :
    ((after .responseLimitExpiry (worked710 (.transfer (delivery91 .header0) ⟨0x80000, 0, 0⟩))).st 6).fault =
      some { code := .ringNoResponse, detail := 0x80000 } := by decide +kernel
-- event 12, with the delivery for station 6 in BUS_WAIT and station 2's ring STALLED
theorem test_ringConsumed :
    ((after (.ringConsumed 2 2) ((worked710 (.busWait (delivery91 .header0))).modSt 2 fun r =>
      { r with ring := ringA .stalled 4 0 })).st 2).ring = ringA .active 4 2 := by decide +kernel
-- "Had station 6 written RING_CONSUMED with 7"
theorem test_ringConsumed_beyond_the_bound :
    ((after (.ringConsumed 6 7) (worked710 (.busWait (delivery91 .header0)))).st 6).fault =
      some { code := .badConsumed, detail := 7 } := by decide +kernel
theorem test_enableRing : ((after (.enableRing 2) (small.modSt 2 fun r => { r with ring := { ringA .disabled 9 9 with latchedSlots := 0 } })).st 2).ring =
    ringA .active 0 0 := by decide +kernel
-- an index address inside the ring 0x0002_0000 to 0x0002_041F
theorem test_enableRing_index_inside : readWord (.aperture 2 .result) (after (.enableRing 2) (small.modSt 2 fun r =>
    { r with ring := { ringA .disabled 0 0 with indexAddr := 0x2041C } })) = 0x0E1B := by decide +kernel
theorem test_disableRing : ((after (.disableRing 1) (ringed (ringA .stalled 4 0))).st 1).pendingFlags = 4 := by decide +kernel
theorem test_disableRing_during_a_delivery :
    ((after (.disableRing 1) (engaged (.busWait (deliveryA .header0)))).st 1).ring.state = .disabling := by decide +kernel
-- event 15
theorem test_resumeRing :
    let t := after (.resumeRing 6) ((worked710 .idle).modSt 6 fun r => { r with ring := { r.ring with state := .faulted } })
    (t.st 6).ring.state = .active ∧ readWord (.aperture 6 .result) t = 0x1000 := by decide +kernel
theorem test_setEngine : readWord (.global .engineConfig) (after (.setEngine 0 255 7 16) small) = 0b10000_00000_111_11111111 := by
  decide +kernel

/-! ### Commands: notification. Section 8.8 -/

/-- Station 3 as section 8.8 starts it, with the given pending flags and in-service list. -/
def worked88 (pending : BitVec 8) (service : List ServiceEntry) : State := small.modSt 3 fun r =>
  { r with
    enables := 0b10110011, disarm := 0b00100000, levels := 0b111_000_010_011_000_000_011_110, vectorBase := 0x60
    pendingFlags := pending, inService := service }

/-- The data of the latest read. -/
def readData (s : State) : Option Word := s.answer.bind (·.data)

-- event 2: ARRIVE1 at level 3 is chosen over SENT at level 2; vector 0x61
theorem test_ack : readData (after (.ack 3) (worked88 0b00100010 [])) = some 0x80003161 ∧
    ((after (.ack 3) (worked88 0b00100010 [])).st 3).inService = [{ source := 1, level := 3 }] ∧
    ((after (.ack 3) (worked88 0b00100010 [])).st 3).ntf = false := by decide +kernel
-- event 8: SENT's enable is cleared
theorem test_ack_disarms : readData (after (.ack 3) (worked88 0b01100000 [])) = some 0x80002565 ∧
    ((after (.ack 3) (worked88 0b01100000 [])).st 3).enables = 0b10010011 := by decide +kernel
-- event 6, its first END_SERVICE
theorem test_endService : ((after (.endService 3 0) (worked88 0b01110000 [⟨1, 3⟩, ⟨0, 6⟩, ⟨7, 7⟩])).st 3).inService =
    [⟨1, 3⟩, ⟨0, 6⟩] := by decide +kernel
-- event 10
theorem test_notifyPending : ((after (.notifyPending 3 0x60) (worked88 0b01100000 [])).st 3).pendingFlags = 0 := by decide +kernel
theorem test_notifyEnable : ((after (.notifyEnable 3 0x1B3) (worked88 0 [])).st 3).enables = 0xB3 := by decide +kernel
theorem test_notifyDisarm : ((after (.notifyDisarm 3 0x0F) (worked88 0 [])).st 3).disarm = 0x0F := by decide +kernel
theorem test_notifyLevels : ((after (.notifyLevels 3 0xFF000007) (worked88 0 [])).st 3).level 0 = 7 ∧
    ((after (.notifyLevels 3 0xFF000007) (worked88 0 [])).st 3).level 7 = 0 := by decide +kernel
theorem test_vectorBase : ((after (.vectorBase 3 0x9B) (worked88 0 [])).st 3).vector 6 = 0x9E := by decide +kernel
theorem test_vectorBase_offline_ignored : ((after (.vectorBase 6 0x9B) small).st 6).vectorBase = 0x40 := by decide +kernel
theorem test_faultRecordWrite : ((after (.faultRecordWrite 3 0)
    (small.modSt 3 (StationRec.faulted .badConsumed 7))).st 3).fault = none := by decide +kernel

/-! ### Commands: registers, clock, reset -/

theorem test_waitLimits : ((after (.waitLimits 3 0x00050007) small).st 3).lockWaitLimit = 5 ∧
    ((after (.waitLimits 3 0x00050007) small).st 3).roomWaitLimit = 7 := by decide +kernel
theorem test_registerWrite : readWord (.aperture 7 .sendTag) (after (.registerWrite (.aperture 7 .sendTag) 0xABCD1234) small) = 0x1234 := by
  decide +kernel
theorem test_registerWrite_read_only : after (.registerWrite (.global .tickConfig) 9) small = written small := by decide +kernel
theorem test_partialOrUnmappedAccess : ((after (.partialOrUnmappedAccess 0x5FF 15 true) small).st 2).fault =
    some { code := .accessFault, detail := 0x7FC } := by decide +kernel
theorem test_setTick : readWord (.global .tickConfig)
    (after (.setTick 0) (small.modSt 0 fun r => { r with supOperand := 65535 })) = 65535 := by decide +kernel
theorem test_tick : ((after .tick (waiting.modSt 2 fun r => { r with wait := some { lock := 5, timer := some 9 } })).st 2).wait =
    some { lock := 5, timer := some 8 } := by decide +kernel
theorem test_tick_expires_left : ((after .tick waiting).st 2).lastWait = .timeout := by decide +kernel
/-- R184: timers that reach their last tick together expire at it, here at the 1000th CLK period. -/
theorem test_idle_expires : let s := { awaiting with tickCount := 999, roomQueue := awaiting.roomQueue.map fun e => { e with timer := some 1 } }
    ((idled s).st 0).pendingFlags = 0x20 ∧ (idled s).roomQueue = [] := by decide +kernel
theorem test_reset : (after (.reset 6) waiting) = { State.reset with supervisor := 6 } := by decide +kernel

/-! ### Witnesses: a state and operands that meet the hypotheses of each statement, clause by clause -/

theorem witness_StepRunsTheFrontCommand : ({ small with pending := [.tick, .busGrant] } : State).pending = .tick :: [.busGrant] := rfl
/-- Every timer runs, with `n` ticks to come, `count` CLK periods into the tick in progress. -/
def timedAt (n count : Nat) : State :=
  { (owning .index n).modSt 2 (fun r => { r with wait := some { lock := 5, timer := some n } }) with
    roomQueue := [{ station := 0, channel := 1, cellsNeeded := 2, timer := some n }], tickCount := count }

theorem timedAt_noTimerDue {n count : Nat} (h : n ≠ 0) : (timedAt n count).NoTimerDue := by
  refine ⟨by simp [timedAt, h], fun a w hw => ?_, fun d c hc => ?_⟩
  · by_cases ha : a = 2
    · subst ha
      have e : ((timedAt n count).st 2).wait = some { lock := 5, timer := some n } := rfl
      rw [e] at hw
      cases hw
      simp [h]
    · have e : ∀ b : StationId, b ≠ 2 → ((timedAt n count).st b).wait = none := by
        intro b
        fin_cases b <;> first | exact fun _ => rfl | exact fun h => absurd rfl h
      rw [e a ha] at hw
      cases hw
  · have e : (timedAt n count).engine = .transfer (deliveryA .index) ⟨0x20318, 0, n⟩ := rfl
    rw [e] at hc
    cases hc
    exact h

theorem witness_ClkPeriodsAndTicks : (timedAt 1 999).NoTimerDue ∧ small.NoTimerDue ∧ small.bown = false ∧
    (timedAt 1 0).tickCount + 1 < (timedAt 1 0).tickDiv ∧ (timedAt 1 998).tickCount + 1 < (timedAt 1 998).tickDiv ∧
    (timedAt 1 999).tickDiv ≤ (timedAt 1 999).tickCount + 1 ∧
    ∀ x ∈ [(1, 999, 1), (1, 998, 2), (2, 999, 1001)], let s := timedAt x.1 x.2.1
      s.pending = [] ∧ s.tickCount < s.tickDiv ∧ 1 ≤ x.1 ∧ s.periodsTo x.1 = x.2.2 ∧
      (s.st 2).wait = some { lock := 5, timer := some x.1 } ∧
      s.engine = .transfer (deliveryA .index) ⟨0x20318, 0, x.1⟩ ∧
      (idled s).roomQueue.map (·.timer) = if x.2.2 = 1 then [] else [some 1] := by
  refine ⟨timedAt_noTimerDue (by decide), ⟨by decide, by decide +kernel, fun d c h => ?_⟩, ?_⟩
  · have e : small.engine = .idle := rfl
    rw [e] at h
    cases h
  · decide +kernel
theorem witness_EveryCommandAnswersNext : (∀ v, Instr.tick ≠ .reset v) ∧ (∀ k w, Instr.tick ≠ .stagingWrite 1 k w) ∧
    (∀ w, Instr.tick ≠ .registerWrite (.aperture 1 .supOperand) w) ∧
      (∀ w, Instr.tick ≠ .registerWrite (.aperture 1 .sendTag) w) ∧
    (∀ w, Instr.tick ≠ .registerWrite (.aperture 1 .ringBase) w) ∧
      (∀ w, Instr.tick ≠ .registerWrite (.aperture 1 .ringSlots) w) ∧
    ∀ w, Instr.tick ≠ .registerWrite (.aperture 1 .ringIndexAddr) w := by simp
/-- `exec` of `i` answers a next state, in which station `a` has another state. -/
def Moves (i : Instr) (s : State) (a : StationId) : Prop :=
  exec i s = .next (after i s) ∧ ((after i s).st a).state ≠ (s.st a).state

theorem moves_of {i : Instr} {s : State} {a : StationId}
    (h : (answersNext i s && decide (((after i s).st a).state ≠ (s.st a).state)) = true) : Moves i s a := by
  simp only [Bool.and_eq_true, decide_eq_true_eq] at h
  exact ⟨exec_eq_after h.1, h.2⟩

theorem witness_StationStateTransitions : Moves (.attach 5) small 5 ∧ Moves (.retire 1) small 1 ∧
    Moves (.retireStation 0 1) small 1 ∧
    Moves (.copyCompletion 0) ((copying none).modSt 0 fun r => { r with state := .quiescing }) 0 ∧
      Moves (.reset 0) small 1 := by
  refine ⟨?_, ?_, ?_, ?_, ?_⟩ <;> exact moves_of (by decide +kernel)
/-- Words at both ends of the window, an access of each kind, and each answer. -/
theorem witness_AccessesServedUnlessDeviceOwnsBus : (owning .header0 8).bown = true ∧
    (encodeAccess (.attach 5)).isSome = true ∧
    (encodeAccess (.ack 7)).isSome = true ∧ (encodeAccess (.partialOrUnmappedAccess 8191 15 false)).isSome = true ∧
    decodeAccess ⟨0x400, 15, true, 1⟩ = some (.attach 2) ∧ small.bown = false ∧
    (∀ x ∈ [((1 : Fin 8192), WindowWord.aperture 0 .result), (3775, .aperture 7 (.payload 63)), (4351, .global (.lockWaiters 31))],
      windowWordAt x.1 = some x.2 ∧ ∀ a, x.2 ≠ .aperture a .ack) ∧
    small.answer = none ∧ (after (.attach 5) small).answer = some { resp := .complete, data := none } ∧
    (after (.partialOrUnmappedAccess 8191 15 false) small).answer = some { resp := .fault, data := some 0 } := by decide +kernel
/-- The commands at either end of each range of Table 10-4, and codes beside them. -/
theorem witness_DispatchChecksRefuseInOrder : small.bown = false ∧
    (∀ n ∈ [0x00, 0x11, 0x1F, 0x26, 0xFF], (BitVec.ofNat 32 n).toNat % 256 = n ∧ BitVec.ofNat 8 n ∉ commandCodes) ∧
    (∀ n ∈ [0x20, 0x25], BitVec.ofNat 8 n ∈ commandCodes ∧ 0x20 ≤ n ∧ (3 : StationId) ≠ small.supervisor) ∧
    (∀ n ∈ [0x02, 0x10, 0x20, 0x25], BitVec.ofNat 8 n ∈ commandCodes ∧
      (0x20 ≤ n → (0 : StationId) = State.reset.supervisor) ∧ n ≠ 1 ∧
      (State.reset.st 0).state ≠ .online) ∧
    ((small.modSt 0 fun r => { r with state := .quiescing }).st 0).state = .quiescing := by decide +kernel
theorem witness_PartialOrUnmappedAccessFaults : small.bown = false ∧
    wellFormed (.partialOrUnmappedAccess 0 0 true) = true ∧
    (0 : Fin 8192).val / 512 = (0 : StationId).val ∧ wellFormed (.partialOrUnmappedAccess 4095 15 false) = true ∧
    (4095 : Fin 8192).val / 512 = (7 : StationId).val ∧ wellFormed (.partialOrUnmappedAccess 4096 14 true) = true ∧
    4096 ≤ (4096 : Fin 8192).val ∧ wellFormed (.partialOrUnmappedAccess 8191 15 false) = true := by decide +kernel
theorem witness_RegisterWritesStoreOrAreIgnored : small.bown = false ∧ (small.st 3).state = .online ∧
    (small.st 4).state ≠ .online ∧
    hasOwnRow (.global .tickConfig) = false ∧ hasOwnRow (.aperture 7 (.payload 63)) = false ∧
    ∀ t ∈ [WindowWord.global .tickConfig, .aperture 7 (.payload 63)], ∀ b, t ≠ .aperture b .supOperand ∧
      t ≠ .aperture b .sendTag ∧
      t ≠ .aperture b .ringBase ∧ t ≠ .aperture b .ringSlots ∧ t ≠ .aperture b .ringIndexAddr := by decide +kernel
theorem witness_SetTickAndSetEngine : small.bown = false ∧ (0 : StationId) = small.supervisor ∧
    (small.st 0).state = .online ∧
    ((small.modSt 0 fun r => { r with supOperand := 65536 }).st 0).supOperand = 65536 ∧
    (16 ≤ (16 : Word).toNat ∧ (16 : Word).toNat ≤ 65535) ∧ (16 ≤ (65535 : Word).toNat ∧ (65535 : Word).toNat ≤ 65535) ∧
    ((15 : Word).toNat < 16 ∨ 65535 < (15 : Word).toNat) ∧ ((65536 : Word).toNat < 16 ∨ 65535 < (65536 : Word).toNat) ∧
    (1 ≤ (1 : Fin 256).val ∧ 1 ≤ (1 : Fin 32).val ∧ (16 : Fin 32).val ≤ 16) ∧
    ((0 : Fin 256).val = 0 ∧ (0 : Fin 32).val = 0 ∧ 16 < (17 : Fin 32).val) := by decide +kernel
theorem witness_AttachFromOffline : small.bown = false ∧ (small.st 7).state = .offline ∧
    (small.st 3).state = .online := by decide +kernel

/-- What `RoomQueueAgrees` says of each station, as a computation. -/
def roomQueueAgrees (s : State) : Bool :=
  decide (s.roomQueue.map (·.station)).Nodup &&
    (s.roomQueue.all fun e => match (s.st e.station).send with
      | .awaitRoom p => p.channel == e.channel && p.cellsNeeded == e.cellsNeeded
      | _ => false) &&
    (List.finRange 8).all fun a => match (s.st a).send with
      | .awaitRoom _ => decide ((s.st a).state = .online) && s.roomQueue.any fun e => e.station == a
      | _ => true

theorem roomQueueAgrees_sound {s : State} (h : roomQueueAgrees s = true) : s.RoomQueueAgrees := by
  simp only [roomQueueAgrees, Bool.and_eq_true, decide_eq_true_eq, List.all_eq_true] at h
  refine ⟨h.1.1, fun e he => ?_, fun a p hp => ?_⟩
  · have := h.1.2 e he
    split at this
    · rename_i p hp
      simp only [Bool.and_eq_true, beq_iff_eq] at this
      exact ⟨p, hp, this⟩
    · simp at this
  · have := h.2 a (List.mem_finRange a)
    rw [hp] at this
    simpa only [Bool.and_eq_true, decide_eq_true_eq, List.any_eq_true, beq_iff_eq] using this

/-- Station 0's post waits for room and station 0 waits for lock 5 of station 2. -/
def awaitingBoth : State := (awaiting.setLock 5 { state := .held 2, waiters := [0] }).modSt 0 fun r =>
  { r with wait := some { lock := 5, timer := none } }

theorem witness_RetireWithNoCopyInFlight : awaitingBoth.bown = false ∧ (awaitingBoth.st 0).state = .online ∧
    (awaitingBoth.st 0).send.isCopying = false ∧ awaitingBoth.RoomQueueAgrees ∧ awaitingBoth.WaitersAgree := by
  refine ⟨by decide +kernel, by decide +kernel, by decide +kernel, roomQueueAgrees_sound (by decide +kernel), ?_⟩
  unfold State.WaitersAgree
  decide +kernel
/-- The retiring station has the delivery that waits for the bus. -/
theorem witness_RetireWithNoCopyInFlight_delivering : let s := engaged (.busWait (deliveryA .header0))
    s.bown = false ∧ (s.st 1).state = .online ∧ (s.st 1).send.isCopying = false ∧ s.RoomQueueAgrees ∧ s.WaitersAgree ∧
      s.delivering 1 = true := by
  refine ⟨by decide +kernel, by decide +kernel, by decide +kernel, roomQueueAgrees_sound (by decide +kernel), ?_, by decide +kernel⟩
  unfold State.WaitersAgree
  decide +kernel
/-- No message exists. Station 0's post waits for room with lock 5 pledged, for which station 2 waits; station 0 holds lock 6,
and lock 7, for which station 3 waits; station 0 waits for lock 8 of station 3. -/
def locking : State :=
  let waits (a : StationId) (l : LockId) (s : State) : State := s.modSt a fun r => { r with wait := some { lock := l, timer := none } }
  { waits 0 8 (waits 3 7 (waits 2 5 ((((routed.setLock 5 { state := .pledged 0, waiters := [2] }).setLock 6
        { state := .held 0, waiters := [] }).setLock 7 { state := .held 0, waiters := [3] }).setLock 8
        { state := .held 3, waiters := [0] }))) |>.modSt 0 fun r => { r with send := .awaitRoom (postA (some 5)) } with
    roomQueue := [{ station := 0, channel := 1, cellsNeeded := 2, timer := none }] }

theorem locking_msg : ∀ d, locking.msg d = none := by decide +kernel
theorem locking_lock : ∀ l, (locking.lock l).state =
    if l = 5 then .pledged 0 else if l = 6 ∨ l = 7 then .held 0 else if l = 8 then .held 3 else .free := by decide +kernel
theorem locking_station : ∀ a, (locking.st a).send = (if a = 0 then .awaitRoom (postA (some 5)) else .idle) ∧
    (locking.st a).readSlot = none ∧ ∀ c, (locking.st a).queue c = [] := by decide +kernel

theorem locking_messagesPlaced : locking.MessagesPlaced where
  copying a p d h := by
    rw [(locking_station a).1] at h
    split at h <;> cases h
  queued a c := by simp [locking_station]
  delivering r h := by simp [show locking.engine.delivery = none from rfl] at h
  reading a slot h := by simp [locking_station] at h
  placed d m h := by simp [locking_msg] at h
  carried l d := by
    simp only [locking_lock, locking_msg]
    split_ifs <;> simp
  pledged l a := by
    simp only [locking_lock, (locking_station a).1]
    by_cases ha : a = 0
    · subst ha
      split_ifs <;> simp_all [SendState.post, postA, eq_comm]
    · split_ifs <;> simp_all [SendState.post, eq_comm]

theorem locking_storeConserved : locking.StoreConserved := by
  have hh : locking.heldCells = [] := by simp [State.heldCells, locking_msg]
  refine ⟨?_, by decide +kernel, fun d => ?_⟩
  · rw [hh, List.append_nil, show locking.freeCells = List.finRange 1024 by decide +kernel]
  · rw [show locking.freeDescs = List.finRange 256 by decide +kernel, locking_msg]
    simp

/-- Locks that go to a waiter and to none, and one that stays. -/
theorem witness_RetireWithNoCopyInFlight_locks : (locking.bown = false ∧ (locking.st 0).state = .online ∧
      (locking.st 0).send.isCopying = false ∧ locking.RoomQueueAgrees ∧ locking.WaitersAgree) ∧
    locking.MessagesPlaced ∧ locking.StoreConserved ∧ ((locking.lock 5).state = .pledged 0 ∧
      (locking.lock 5).waiters.erase 0 = 2 :: []) ∧
    ((locking.lock 6).state = .held 0 ∧ (locking.lock 6).waiters.erase 0 = []) ∧
    ((locking.lock 7).state = .held 0 ∧ (locking.lock 7).waiters.erase 0 = 3 :: []) ∧
    (locking.lock 8).state = .held 3 ∧ (locking.lock 8).waiters.erase 0 = [] := by
  refine ⟨⟨by decide +kernel, by decide +kernel, by decide +kernel, roomQueueAgrees_sound (by decide +kernel), ?_⟩,
    locking_messagesPlaced, locking_storeConserved, by decide +kernel⟩
  unfold State.WaitersAgree
  decide +kernel

/-- Station 1 holds three messages, in class 0, in class 2 and in its read slot. The second carries lock 5, for which
stations 7, not ONLINE, and 2 wait; station 0's confirmation list holds `n` entries. -/
def purging (waiters : List StationId) (n : Nat) : State :=
  ((((queued (some 5)).setLock 5 { state := .carried 0, waiters }).setMsg 9 (some (messageA .queued none))).setMsg 6
      (some (messageA .reading none))).modSt 1 (fun r => { r.setQueue 0 [9] with
        readSlot := some { desc := 6, header0 := 0, header1 := 0 } }) |>.modSt 0 fun r =>
    { r with confirms := List.replicate n ⟨1, 0, .released⟩ }

/-- A waiter that takes the carried lock, and none; a confirmation list with room for no entry, for one of three, and for
all. -/
theorem witness_OfflineEntryDiscardsHeldMessages :
    (∀ x ∈ [(([7, 2] : List StationId), 16), ([7], 15), ([], 13)], let s := purging x.1 x.2
     s.bown = false ∧ (s.st 1).state = .online ∧ (s.st 1).send = .idle ∧ s.roomQueue = [] ∧
      (s.st 1).queue 0 ++ (s.st 1).queue 1 ++ (s.st 1).queue 2 ++ (s.st 1).queue 3 ++ ((s.st 1).readSlot.map (·.desc)).toList = [9, 0, 6] ∧
      ([9, 0, 6] : List DescId).Nodup ∧ (∀ d ∈ ([9, 0, 6] : List DescId), (s.msg d).isSome = true) ∧
      s.msg 0 = some (messageA .queued (some 5)) ∧
      (∀ e ∈ ([9, 6] : List DescId), ((s.msg e).bind (·.carriedLock)) ≠ some 5) ∧
      (s.lock 5).waiters.filter (fun w => decide (w ≠ 1 ∧ (s.st w).state = .online)) = x.1.filter (· == 2) ∧
      (s.st 0).state = .online ∧ (s.st 0).confirms.length ≤ 16 ∧ (s.st 4).state ≠ .online) := by decide +kernel
theorem witness_RetireDuringCopyWaitsForCompletion : ((copying (some 5)).bown = false ∧
    ((copying (some 5)).st 0).state = .online ∧
      ((copying (some 5)).st 0).send = .copying (postA (some 5)) 0 ∧ (copying (some 5)).RoomQueueAgrees ∧
        (copying (some 5)).delivering 0 = false) ∧
    let s := (copying (some 5)).modSt 0 fun r => { r with state := .quiescing }
    (s.st 0).state = .quiescing ∧ (s.st 0).send = .copying (postA (some 5)) 0 ∧ (s.msg 0).isSome = true ∧
      s.delivering 0 = false := by
  refine ⟨⟨by decide +kernel, by decide +kernel, by decide +kernel, roomQueueAgrees_sound (by decide +kernel), by decide +kernel⟩, ?_⟩
  decide +kernel
/-- Station 0 copies, and the delivery of descriptor 9 to it waits for the bus, its ring DISABLING; class 0 of station 3, with
an ACTIVE ring, holds `others`, and the round-robin pointer is `p`. -/
def overtaken (p : StationId) (others : List DescId) : State :=
  { (((copying none).setMsg 9 (some { messageA .delivering none with dest := 0, cls := 1, cells := [2] })).setMsg 8
      (some { messageA .queued none with dest := 3, cls := 0, cells := [3] })).modSt 0
        (fun r => { r.setQueue 1 [9] with ring := ringA .disabling 3 0 }) |>.modSt 3 fun r =>
      { r.setQueue 0 others with ring := ringA .active 3 0 } with
    engine := .busWait { deliveryA .header0 with station := 0, cls := 1, desc := 9 }, rrPointer := p }

/-- No other station to serve, then station 3, third behind pointer 0 and last behind pointer 3. -/
theorem witness_RetireDuringCopyWaitsForCompletion_abandons :
    (∀ x ∈ [((0 : StationId), ([] : List DescId)), (0, [8]), (3, [8])],
      (overtaken x.1 x.2).bown = false ∧ ((overtaken x.1 x.2).st 0).state = .online ∧
      ((overtaken x.1 x.2).st 0).send = .copying (postA none) 0 ∧ roomQueueAgrees (overtaken x.1 x.2) = true ∧
      (overtaken x.1 x.2).engine = .busWait { deliveryA .header0 with station := 0, cls := 1, desc := 9 } ∧
      (overtaken x.1 x.2).msg 9 = some { messageA .delivering none with dest := 0, cls := 1, cells := [2] } ∧
      (((overtaken x.1 x.2).st 0).queue 1).head? = some 9 ∧ ∀ b c, b ≠ 0 → 9 ∉ ((overtaken x.1 x.2).st b).queue c) ∧
    (∀ b, ¬ (after (.retire 0) (overtaken 0 [])).Servable b) ∧
    (∀ x ∈ [((0 : StationId), 3), (3, 8)],
      1 ≤ x.2 ∧ x.2 ≤ 8 ∧ (3 : StationId).val = ((overtaken x.1 [8]).rrPointer.val + x.2) % 8 ∧
      (after (.retire 0) (overtaken x.1 [8])).Servable 3 ∧
      (∀ j < x.2, ∀ b : StationId, 1 ≤ j → b.val = ((overtaken x.1 [8]).rrPointer.val + j) % 8 →
        ¬ (after (.retire 0) (overtaken x.1 [8])).Servable b) ∧
      ((after (.retire 0) (overtaken x.1 [8])).st 3).queue 0 = 8 :: [] ∧
      (overtaken x.1 [8]).msg 8 = some { messageA .queued none with dest := 3, cls := 0, cells := [3] }) := by
  unfold State.Servable
  refine ⟨?_, ?_, ?_⟩ <;> decide +kernel
-- R113: the locks of a retiring station go to their first waiters, or become FREE. R134: the message of the abandoned
-- delivery is QUEUED again at the head of its queue, the DISABLING ring is DISABLED, station 3 is served next
theorem test_retire_locks_and_delivery :
    (let t := after (.retire 0) locking
     t.lock 5 = { state := .held 2, waiters := [] } ∧ t.lock 6 = { state := .free, waiters := [] } ∧
       (t.st 3).lastWait = .granted ∧
      t.lock 8 = { state := .held 3, waiters := [] }) ∧
    let t := after (.retire 0) (overtaken 7 [8])
    (t.msg 9).map (·.state) = some .queued ∧ (t.st 0).queue 1 = [9] ∧ (t.st 0).ring.state = .disabled ∧
      t.engine.delivery.map (·.desc) = some 8 ∧ t.brq = false := by decide +kernel
theorem witness_RetireStationActsAsRetire : small.bown = false ∧ (0 : StationId) = small.supervisor ∧
    (small.st 0).state = .online ∧
    (small.st 3).state = .online ∧ (small.st 4).state ≠ .online := by decide +kernel
/-- Lengths 0 and 64, without and with a passed lock. -/
theorem witness_PostIsGivenRoomAtOnce : holding.bown = false ∧ (holding.st 0).state = .online ∧
    holding.PostPasses 0 1 0 false 0 ∧ holding.PostPasses 0 1 64 true 5 ∧ holding.roomQueue = [] ∧
    holding.freeDescs = 0 :: holding.freeDescs.tail ∧ ((64 : Fin 128).val + 7) / 8 ≤ holding.freeCells.length ∧
    (({ holding with freeCells := [] } : State).PostPasses 0 1 0 false 0 ∧
      ((0 : Fin 128).val + 7) / 8 ≤ ({ holding with freeCells := [] } : State).freeCells.length) := by
  unfold State.PostPasses
  decide +kernel
theorem witness_PostThatFindsNoRoom :
    (∀ s ∈ [awaiting, { holding with freeDescs := [] }, { holding with freeCells := [0] }], s.bown = false ∧
      (s.st 2).state = .online ∧
      s.PostPasses 2 1 9 false 0 ∧
        (s.roomQueue ≠ [] ∨ s.freeDescs = [] ∨ s.freeCells.length < ((9 : Fin 128).val + 7) / 8) ∧
      (s.chan 1).hold = true) ∧
    let s := ({ holding with freeDescs := [] } : State).modChan 1 fun e => { e with hold := false }
    s.bown = false ∧ (s.st 0).state = .online ∧ s.PostPasses 0 1 64 true 5 ∧ s.freeDescs = [] ∧
      (s.chan 1).hold = false := by
  unfold State.PostPasses
  decide +kernel
/-- One post for each refusal, in the order of the checks. -/
theorem witness_PostRefusedByItsFirstFailingCheck :
    (∀ x ∈ ([(copying none, 1, 65, false), (holding, 0, 65, false), (holding, 0, 64, false),
        (holding.modChan 1 fun e => { e with mask := 0xFE }, 1, 64, false),
        (holding.modChan 1 fun e => { e with dest := 7 }, 1, 64, false),
        (holding.modChan 1 fun e => { e with count := 2 }, 1, 64, false),
        (holding.modChan 1 fun e => { e with pass := false }, 1, 64, true),
        (holding.setLock 5 { state := .pledged 0, waiters := [] }, 1, 64, true),
        (holding.setLock 5 { state := .held 1, waiters := [] }, 1, 64, true)] : List (State × ChannelId × Fin 128 × Bool)),
      x.1.bown = false ∧ (x.1.st 0).state = .online ∧ ¬ x.1.PostPasses 0 x.2.1 x.2.2.1 x.2.2.2 5) := by
  unfold State.PostPasses
  decide +kernel

/-- Station 3's post of no cells waits for a descriptor before station 0's. -/
def awaitingSecond : State := { awaiting.modSt 3 fun r => { r with send := .awaitRoom { postA none with length := 0, cellsNeeded := 0 } } with
  roomQueue := { station := 3, channel := 1, cellsNeeded := 0, timer := none } :: awaiting.roomQueue }

theorem witness_RoomWaitEndsWithoutGrant :
    (∀ x ∈ [(awaiting, []), (awaitingSecond, [({ station := 3, channel := 1, cellsNeeded := 0, timer := none } : RoomEntry)])],
      (x.1.st 0).send = .awaitRoom (postA none) ∧
      x.1.roomQueue = x.2 ++ { station := 0, channel := 1, cellsNeeded := 2, timer := some 0 } :: [] ∧
      (∀ y ∈ x.2 ++ [], y.station ≠ 0) ∧ x.1.bown = false ∧ (x.1.st 0).state = .online) ∧
    (∀ e ∈ awaiting.roomQueue, e.station = 2 → e.timer ≠ some 0) ∧ (awaiting.st 2).send = .idle ∧
      (awaiting.st 2).state = .online ∧
    ((copying none).bown = false ∧ ((copying none).st 0).state = .online ∧
      ((copying none).st 0).send = .copying (postA none) 0) := by
  decide +kernel
theorem witness_StagingWriteStoresOrCollides : small.bown = false ∧ (small.st 7).send = .idle ∧
    (copying none).bown = false ∧
    ((copying none).st 0).send ≠ .idle ∧ (awaiting.st 0).send ≠ .idle := by decide +kernel
/-- The destination queue one short of its limit, and a state without a copy. -/
theorem witness_CopyCompletionEnqueues :
    (let s := (copying (some 5)).modSt 1 fun r => { r.setQueue 2 [9] with limits := put r.limits 2 2 }
     (s.st 0).send = .copying (postA (some 5)) 0 ∧ s.msg 0 = some (messageA .filling (some 5)) ∧
       (s.st 0).state ≠ .quiescing ∧
      (s.st (messageA .filling (some 5)).dest).state = .online ∧ ((s.st 1).queue 2).length < ((s.st 1).limit 2).val) ∧
    (awaiting.st 0).send.isCopying = false := by decide +kernel
theorem witness_CopyWritesStagedWords : ((copying none).st 0).send = .copying (postA none) 0 ∧
    (copying none).msg 0 = some (messageA .filling none) ∧ (messageA .filling none).cells.Nodup ∧
      (messageA .filling none).length ≤ 64 ∧
    (messageA .filling none).cells.length = ((messageA .filling none).length + 7) / 8 ∧
      CellStore.wf (copying none).cellStore = true ∧
    (messageA .filling none).cells[(9 : Fin 64).val / 8]? = some 1 ∧
      ∀ c ∈ (messageA .filling none).cells, 16 / 8 ≠ c.val := by
  decide +kernel
theorem witness_CopyCompletionFailsItsLateCheck :
    (∀ x ∈ [((copying (some 5)).modSt 1 fun r => { r with state := .offline }, SendOutcome.destOffline),
        ((copying (some 5)).modSt 1 fun r => { r.setQueue 2 [9, 8] with limits := put r.limits 2 2 }, .queueFull)],
      (x.1.st 0).send = .copying (postA (some 5)) 0 ∧ x.1.msg 0 = some (messageA .filling (some 5)) ∧
        (x.1.st 0).state ≠ .quiescing ∧
      ((x.1.st 1).state ≠ .online ∧ x.2 = .destOffline ∨
        (x.1.st 1).state = .online ∧ ((x.1.st 1).limit 2).val ≤ ((x.1.st 1).queue 2).length ∧
          x.2 = .queueFull)) := by decide +kernel
theorem witness_RoomQueueExamination : small.roomQueue = [] ∧
    awaiting.roomQueue = { station := 0, channel := 1, cellsNeeded := 2, timer := some 0 } :: [] ∧
      awaiting.freeDescs = [] ∧
    let s := { awaiting with freeDescs := [4, 5], freeCells := [6, 7] }
    s.roomQueue = { station := 0, channel := 1, cellsNeeded := 2, timer := some 0 } :: [] ∧ s.freeDescs = 4 :: [5] ∧
      2 ≤ s.freeCells.length ∧ (s.st 0).send = .awaitRoom (postA none) ∧
        (postA none).cellsNeeded = 2 := by decide +kernel
theorem witness_NeedAndFit : (0 ≤ 64 ∧ 64 ≤ 64) ∧ cellsFor 0 = 0 ∧ cellsFor 1 = 1 ∧ cellsFor 8 = 1 ∧ cellsFor 9 = 2 ∧
    cellsFor 64 = 8 := by
  decide
/-- Ring mode, an occupied slot, empty queues, and a message whose lock the taker waits for. -/
theorem witness_TakeAndTakeAny : ((ringed (ringA .active 3 0)).bown = false ∧
    ((ringed (ringA .active 3 0)).st 1).state = .online ∧
      ((ringed (ringA .active 3 0)).st 1).ring.state ≠ .disabled) ∧
    (reading.bown = false ∧ (reading.st 1).ring.state = .disabled ∧ (reading.st 1).readSlot.isSome = true) ∧
    ((small.st 3).ring.state = .disabled ∧ (small.st 3).readSlot = none ∧ ∀ c, (small.st 3).queue c = []) ∧
    let s := ((queued (some 5)).setLock 5 { state := .carried 0, waiters := [2, 1] }).modSt 1 fun r =>
      { r with wait := some { lock := 5, timer := none } }
    s.bown = false ∧ (s.st 1).state = .online ∧ (s.st 1).ring.state = .disabled ∧ (s.st 1).readSlot = none ∧
      (s.st 1).queue 2 = 0 :: [] ∧ s.msg 0 = some (messageA .queued (some 5)) ∧
        ∀ c < 2, (s.st 1).queue c = [] := by decide +kernel
theorem witness_ReleaseEndsTheMessageRead : reading.bown = false ∧ (reading.st 1).state = .online ∧
    (reading.st 2).state = .online ∧
    (reading.st 2).readSlot = none ∧ (reading.st 1).readSlot.map (·.desc) = some 0 ∧
    reading.msg 0 = some (messageA .reading none) ∧ (messageA .reading none).carriedLock = none := by decide +kernel
/-- A waiting and another receiver, and confirmation lists of 15 and of 16 entries. -/
theorem witness_MessageEndsInItsFourSteps : (waiting.st 2).wait.map (·.lock) = some 5 ∧
    (waiting.st 3).wait.map (·.lock) ≠ some 5 ∧
    (queued (some 5)).msg 0 = some (messageA .queued (some 5)) ∧ (messageA .reading none).confirm = true ∧
    (let s := reading.modSt 0 fun r => { r with confirms := List.replicate 15 ⟨1, 0, .released⟩ }
     (s.st 0).state = .online ∧ (s.st 0).confirms.length < 16) ∧
    (let s := reading.modSt 0 fun r => { r with confirms := List.replicate 16 ⟨1, 0, .released⟩ }
     (s.st 0).state = .online ∧ 16 ≤ (s.st 0).confirms.length) ∧
    (State.reset.st 0).state ≠ .online ∧
      ({ messageA .reading none with confirm := false } : Message).confirm = false := by decide +kernel
theorem witness_SetQlimitReplacesTheLimit : let s := (queued none).modSt 1 fun r => r.setQueue 2 [0, 9]
    s.bown = false ∧ (s.st 4).state ≠ .online ∧ (s.st 1).state = .online ∧ (0 : Fin 256).val = 0 ∧
    (1 ≤ (1 : Fin 256).val ∧ (1 : Fin 256).val < ((s.st 1).queue 2).length) ∧
    (1 ≤ (2 : Fin 256).val ∧ ((s.st 1).queue 2).length ≤ (2 : Fin 256).val) ∧
    (1 ≤ (255 : Fin 256).val ∧ ((s.st 1).queue 2).length ≤ (255 : Fin 256).val) := by decide +kernel
theorem witness_PopConfirmRemovesTheHead : let s := small.modSt 0 fun r => { r with confirms := [⟨1, 0, .released⟩, ⟨2, 1, .delivered⟩] }
    s.bown = false ∧ (s.st 4).state ≠ .online ∧ (s.st 0).state = .online ∧
    (s.st 0).confirms = ⟨1, 0, .released⟩ :: [⟨2, 1, .delivered⟩] ∧ (s.st 1).state = .online ∧
      (s.st 1).confirms = [] := by decide +kernel
theorem witness_AcquireAndTryLock : waiting.bown = false ∧ (waiting.st 0).state = .online ∧
    (waiting.lock 31).state = .free ∧
    (waiting.lock 5).state = .held 0 ∧
      ((waiting.setLock 5 { state := .pledged 0, waiters := [2] }).lock 5).state = .pledged 0 ∧
    (∀ a ∈ [1, 2], (waiting.st a).state = .online ∧ (waiting.lock 5).state ≠ .free ∧ (waiting.lock 5).state ≠ .held a ∧
      (waiting.lock 5).state ≠ .pledged a) ∧ (waiting.st 2).wait.isSome = true ∧
        (waiting.st 1).wait = none := by decide +kernel
theorem witness_LockHandoff : (holding.lock 5).waiters = [] ∧ (waiting.lock 5).waiters = 2 :: [] ∧
    (waiting.st 2).state = .online ∧
    (let s := waiting.setLock 5 { state := .held 0, waiters := [7, 2] }
     (s.lock 5).waiters = 7 :: [2] ∧ (s.st 7).state ≠ .online) := by decide +kernel
theorem witness_ReleaseLockAndForceRelease : waiting.bown = false ∧ (waiting.st 0).state = .online ∧
    (0 : StationId) = waiting.supervisor ∧
    (waiting.lock 5).state = .held 0 ∧ (waiting.lock 6).state = .free ∧ (waiting.lock 6).state ≠ .held 0 ∧
    (waiting.lock 6).state ≠ .pledged 0 ∧
    ((copying (some 5)).bown = false ∧ ((copying (some 5)).st 0).state = .online ∧
      ((copying (some 5)).lock 5).state = .pledged 0 ∧
      (0 : StationId) = (copying (some 5)).supervisor) ∧
    ((queued (some 5)).bown = false ∧ ((queued (some 5)).st 0).state = .online ∧
      (0 : StationId) = (queued (some 5)).supervisor ∧
      ((queued (some 5)).lock 5).state = .carried 0) := by decide +kernel
theorem witness_LockWaitEndsByCancelOrTimer : (waiting.st 2).wait = some { lock := 5, timer := some 0 } ∧
    waiting.bown = false ∧
    (waiting.st 2).state = .online ∧ (waiting.st 3).wait = none ∧ (waiting.st 3).state = .online ∧
    (let s := waiting.modSt 2 fun r => { r with wait := some { lock := 5, timer := some 1 } }
     (s.st 2).wait = some { lock := 5, timer := some 1 } ∧ (some 1 : Option Nat) ≠ some 0) := by decide +kernel
theorem witness_OpenChannelWritesTheEntry : routed.bown = false ∧ (0 : StationId) = routed.supervisor ∧
    (routed.st 0).state = .online ∧
    (0 : Fin 256).val = 0 ∧ 1 ≤ (1 : Fin 256).val ∧ (routed.st 0).supOperand.toNat ≤ 255 ∧
    255 < ((routed.modSt 0 fun r => { r with supOperand := 256 }).st 0).supOperand.toNat ∧
    ((routed.modSt 0 fun r => { r with supOperand := 255 }).st 0).supOperand.toNat ≤ 255 ∧
      (routed.chan 1).state = .opened ∧
    ((routed.modChan 63 fun e => { e with count := 1 }).chan 63).count ≠ 0 ∧ (routed.chan 63).state = .closed ∧
    (routed.chan 63).count = 0 := by decide +kernel
theorem witness_CloseChannelEndsItsRoomWaits : awaitingSecond.bown = false ∧
    (0 : StationId) = awaitingSecond.supervisor ∧
    (awaitingSecond.st 0).state = .online ∧ (awaitingSecond.chan 0).state = .closed ∧
      (awaitingSecond.chan 1).state = .opened ∧
    awaitingSecond.roomQueue.head?.map (·.channel) = some 1 ∧ awaitingSecond.RoomQueueAgrees := by
  refine ⟨by decide +kernel, by decide +kernel, by decide +kernel, by decide +kernel, by decide +kernel, by decide +kernel, ?_⟩
  exact roomQueueAgrees_sound (by decide +kernel)
/-- A channel that no post waits on is closed: the head is of another channel. -/
theorem witness_CloseChannelOfAnotherChannel : let s := awaiting.modChan 2 fun e => { e with state := .opened }
    s.bown = false ∧ (s.chan 2).state = .opened ∧ s.roomQueue.head?.map (·.channel) ≠ some 2 ∧ s.RoomQueueAgrees := by
  exact ⟨by decide +kernel, by decide +kernel, by decide +kernel, roomQueueAgrees_sound (by decide +kernel)⟩
/-- The condition of ENABLE_RING's checks 2 to 6 as the statement has it. -/
def SetupValid (base slots index : Word) : Prop :=
  8 ∣ base.toNat ∧ slots.toNat ∈ [4, 8, 16, 32, 64, 128, 256] ∧ base.toNat + slots.toNat * 264 ≤ 0x100000000 ∧
    4 ∣ index.toNat ∧ (index.toNat < base.toNat ∨ base.toNat + slots.toNat * 264 ≤ index.toNat)

/-- The index just below the smallest ring and just behind it; a ring that ends at the end of the address space. Then one
setup that fails each check. -/
theorem witness_EnableAndResumeRing_setups :
    (SetupValid 0x20000 4 0x1FFFC ∧ SetupValid 0x20000 4 0x20420 ∧ SetupValid 0xFFFFFBE0 4 0) ∧
    ¬ SetupValid 0x20004 4 0 ∧ ¬ SetupValid 0x20000 5 0 ∧ ¬ SetupValid 0xFFFFFBE8 4 0 ∧ ¬ SetupValid 0x20000 4 2 ∧
    ¬ SetupValid 0x20000 4 0x2041C := by
  unfold SetupValid
  decide +kernel
theorem witness_EnableAndResumeRing :
    (∀ st ∈ [RingState.active, .stalled, .faulted, .disabling, .disabled], let s := ringed (ringA st 4 0)
     s.bown = false ∧ (s.st 1).state = .online ∧ (s.st 1).ring.state = st) := by decide +kernel
theorem witness_DisableRingAtOnceOrThroughDisabling :
    (let s := engaged (.busWait (deliveryA .header0))
     s.bown = false ∧ (s.st 1).state = .online ∧ (s.st 1).ring.state = .active ∧ s.delivering 1 = true) ∧
    (∀ st ∈ [RingState.active, .stalled, .faulted, .disabling, .disabled], let s := ringed (ringA st 4 0)
     s.bown = false ∧ (s.st 1).state = .online ∧ (s.st 1).ring.state = st ∧ s.delivering 1 = false) := by decide +kernel
/-- The largest accepted and the smallest refused difference, 4 and 5 without a delivery, 3 and 4 during one. -/
theorem witness_RingConsumedIsJudgedByTheBound :
    (let s := ringed (ringA .stalled 4 3)
     s.bown = false ∧ s.delivering 1 = false ∧ (s.st 1).ring.state ≠ .disabled ∧
       ((s.st 1).ring.produced - (0 : Half)).toNat ≤ 4 ∧
      4 < ((s.st 1).ring.produced - (0xFFFF : Half)).toNat) ∧
    (let s := engaged (.busWait (deliveryA .header0))
     s.bown = false ∧ s.delivering 1 = true ∧ (s.st 1).ring.state ≠ .disabled ∧
       ((s.st 1).ring.produced - (0 : Half)).toNat ≤ 4 - 1 ∧
      4 - 1 < ((s.st 1).ring.produced - (0xFFFF : Half)).toNat) ∧
    (small.bown = false ∧ (small.st 1).ring.state = .disabled) := by decide +kernel
theorem witness_EngineStartsTheFirstEligibleStation : (owning .header0 8).engine ≠ .idle ∧ (∀ a, ¬ small.Servable a) ∧
    (∀ x ∈ [((7 : StationId), 2), (1, 8)], let s := { ringed (ringA .active 3 0) with rrPointer := x.1 }
     s.engine = .idle ∧ 1 ≤ x.2 ∧ x.2 ≤ 8 ∧ (1 : StationId).val = (s.rrPointer.val + x.2) % 8 ∧ s.Servable 1 ∧
      (∀ j < x.2, ∀ b : StationId, 1 ≤ j → b.val = (s.rrPointer.val + j) % 8 → ¬ s.Servable b) ∧
      (∀ c < 2, (s.st 1).queue c = []) ∧ (s.st 1).queue 2 = 0 :: [] ∧ s.msg 0 = some (messageA .queued none)) := by
  unfold State.Servable
  decide +kernel
theorem witness_BusGrantAndRetry : (let s := engaged (.busWait (deliveryA .header0))
     s.engine = .busWait (deliveryA .header0) ∧ s.gap = false ∧ ({ s with gap := true } : State).gap = true) ∧
    (∀ d, small.engine ≠ .busWait d) ∧ small.engine = .idle ∧ small.bown = false ∧
    (owning .header0 8).engine = .transfer (deliveryA .header0) ⟨0x20318, 0, 8⟩ ∧
    (deliveryA .header0).retries + 1 ≤ ({ owning .header0 8 with retryBudget := 1 } : State).retryBudget := by
  refine ⟨by decide +kernel, fun d h => ?_, rfl, rfl, by decide +kernel, by decide +kernel⟩
  exact absurd h (by rw [show small.engine = .idle from rfl]; simp)
theorem witness_DeliveryWritesInOrder :
    (∀ w ∈ [DeliveryWrite.header0, .header1, .payload 7, .payload 8], (owning w 8).engine = .transfer (deliveryA w) ⟨0x20318, 0, 8⟩ ∧
      (owning w 8).msg (deliveryA w).desc = some (messageA .delivering none) ∧ (deliveryA w).next = w) ∧
    7 + 1 < (messageA .delivering none).length ∧ (messageA .delivering none).length ≤ 8 + 1 ∧
    0 < (messageA .delivering none).length ∧
    ({ messageA .delivering none with length := 0, cells := [] } : Message).length = 0 ∧
    8 < (messageA .delivering none).length ∧ (messageA .delivering none).cells[8 / 8]? = some 1 := by decide +kernel
/-- The engine has the index write of `messageA`, which carries lock 5, open; station `w` waits for lock 5, and station 0's
confirmation list holds `n` entries. -/
def finishing (w : StationId) (n : Nat) : State :=
  { (((owning .index 8).setMsg 0 (some (messageA .delivering (some 5)))).setLock 5 { state := .carried 0, waiters := [w] }).modSt w
      (fun r => { r with wait := some { lock := 5, timer := none } }) |>.modSt 0 fun r =>
        { r with confirms := List.replicate n ⟨1, 0, .released⟩ } with burstLimit := 2 }

/-- The receiver and another station waiting for the carried lock, a confirmation list with room for one and a full one; no
station is servable after it. -/
theorem witness_DeliveryCompletion :
    (∀ x ∈ [((1 : StationId), 15), (2, 16)], let s := finishing x.1 x.2
     s.engine = .transfer (deliveryA .index) ⟨0x20318, 0, 8⟩ ∧ (deliveryA .index).next = .index ∧
      s.msg (deliveryA .index).desc = some (messageA .delivering (some 5)) ∧
      (messageA .delivering (some 5)).dest = (deliveryA .index).station ∧
      (s.st (deliveryA .index).station).queue (deliveryA .index).cls = (deliveryA .index).desc :: [] ∧ s.RingsSound ∧
      s.roomQueue = [] ∧ s.burst + 1 < s.burstLimit ∧ (∀ a, ¬ (after .respComplete s).Servable a) ∧
      ({ s with burstLimit := 1 } : State).burstLimit ≤ ({ s with burstLimit := 1 } : State).burst + 1 ∧
      (messageA .delivering (some 5)).confirm = true ∧ (s.st 0).state = .online ∧ (s.st 0).confirms.length = x.2 ∧
      (s.st x.1).wait.map (·.lock) = some 5 ∧ (s.st 3).wait = none) ∧
    ({ messageA .delivering none with confirm := false } : Message).confirm = false := by
  unfold State.RingsSound Ring.Sound State.Servable
  decide +kernel

/-- The index write of the delivery to station 2 is open, the round-robin pointer at `p`. -/
def bursting (p : StationId) : State :=
  { worked710 (.transfer (delivery40 .index) ⟨0x21000, 4, 8⟩) with rrPointer := p }

/-- The premises of the continued burst: station 6 is the first servable one, `k` behind pointer `p`. -/
def BurstGoesOn (p : StationId) (k : Nat) : Prop :=
  let s := bursting p
  let t := after .respComplete s
  s.msg 40 = some { messageA .queued none with dest := 2, cls := 1, length := 4, cells := [5] } ∧
    (s.st 2).queue 1 = 40 :: [] ∧
    s.RingsSound ∧ (s.burst + 1 < s.burstLimit ∧ 1 ≤ k ∧ k ≤ 8 ∧ (6 : StationId).val = (s.rrPointer.val + k) % 8) ∧
      t.Servable 6 ∧
    (∀ j < k, ∀ b : StationId, 1 ≤ j → b.val = (s.rrPointer.val + j) % 8 → ¬ t.Servable b) ∧
    (∀ e : ClassId, e < 0 → (t.st 6).queue e = []) ∧ (t.st 6).queue 0 = 91 :: [] ∧
    t.msg 91 = some { messageA .delivering none with dest := 6, cls := 0, length := 10, cells := [6, 7] }

/-- The burst goes on to station 6, found seventh behind pointer 7 and last behind pointer 6 (section 7.10, event 10). -/
theorem witness_DeliveryCompletion_burst : BurstGoesOn 7 7 ∧ BurstGoesOn 6 8 := by
  unfold BurstGoesOn State.RingsSound Ring.Sound State.Servable
  refine ⟨⟨?_, ?_, ?_, ?_, ?_, ?_, ?_, ?_, ?_⟩, ?_, ?_, ?_, ?_, ?_, ?_, ?_, ?_, ?_⟩ <;> decide +kernel
theorem witness_DeliveryFaults : (owning .header0 0).engine = .transfer (deliveryA .header0) ⟨0x20318, 0, 0⟩ ∧
    (owning .header0 0).msg (deliveryA .header0).desc = some (messageA .delivering none) ∧
    (owning .header0 1).engine = .transfer (deliveryA .header0) ⟨0x20318, 0, 1⟩ ∧ (1 : Nat) ≠ 0 ∧
    ({ owning .header0 0 with retryBudget := 0 } : State).retryBudget < (deliveryA .header0).retries + 1 := by decide +kernel
theorem witness_NotificationAndClearingWrites : small.bown = false ∧ (small.st 3).state = .online ∧
    (small.st 4).state ≠ .online := by
  decide +kernel
/-- Section 8.8, event 2: ARRIVE1 is ahead of SENT; after event 3 no source is ready. -/
theorem witness_AcknowledgeChoosesTheMostUrgentSource :
    (let s := worked88 0b00100010 []
     s.bown = false ∧ (s.st 3).Ready 1 ∧ ∀ k, (s.st 3).Ready k → (s.st 3).sourceLevel k < (s.st 3).sourceLevel 1 ∨
      (s.st 3).sourceLevel k = (s.st 3).sourceLevel 1 ∧ (1 : SourceId) ≤ k) ∧
    let s := worked88 0b01110000 [⟨1, 3⟩]
    s.bown = false ∧ ∀ n, ¬ (s.st 3).Ready n := by
  unfold StationRec.Ready
  decide +kernel
theorem witness_VectorIsTheBaseWithTheSource : (worked88 0b00100010 []).bown = false ∧
    ((worked88 0b00100010 []).st 3).chosenSource = some 1 ∧
    (((worked88 2 []).modSt 3 fun r => { r with vectorBase := 0x40 }).st 3).chosenSource = some 1 ∧
    (((worked88 2 []).modSt 3 fun r => { r with vectorBase := 0x9B }).st 3).chosenSource = some 1 := by decide +kernel
/-- A state with every list and counter at the largest value its field holds. -/
def full : State :=
  { ((small.setLock 31 { state := .pledged 7, waiters := [0, 1, 2, 3, 4, 5, 6, 7] }).modChan 63 fun e => { e with count := 255 }).modSt 7
      (fun r => { r.setQueue 3 (State.reset.freeDescs.take 255) with
        confirms := List.replicate 16 ⟨63, 0xFFFF, .discarded⟩, wait := some { lock := 31, timer := none }
        ring := { r.ring with latchedSlots := 256 }, fault := some { code := .confirmOverflow, detail := 63 }
        inService := [⟨1, 1⟩, ⟨2, 2⟩, ⟨3, 3⟩, ⟨4, 4⟩, ⟨5, 5⟩, ⟨6, 6⟩, ⟨7, 7⟩] }) with
    roomQueue := List.replicate 8 { station := 7, channel := 63, cellsNeeded := 8, timer := none }
    engine := .busWait { deliveryA .index with desc := 255, retries := 8 }, burst := 16, burstLimit := 16, retryBudget := 7
    responseLimit := 255, tickDiv := 65535 }

/-- A message with its length and its lock at their bounds, and one without a lock. -/
theorem witness_WindowWordsReadTheirContent : ({ messageA .queued (some 31) with length := 64 } : Message).length ≤ 64 ∧
    (messageA .queued (some 31)).carriedLock = some 31 ∧ (messageA .queued none).carriedLock = none := by decide +kernel
/-- The words of an aperture: station 7 has each list full and each optional field there, station 0 has none. -/
theorem witness_WindowWordsReadTheirContent_aperture : (∃ w : ApertureWord →
    Word, ∀ k, w k = readWord (.aperture 7 k) full) ∧
    ((full.st 7).result.code = .ok ∧ (full.st 7).wait = some { lock := 31, timer := none } ∧ (full.st 0).wait = none ∧
      (∀ c, ((full.st 7).queue c).length ≤ 255) ∧ ((full.st 7).queue 3).length = 255 ∧ (full.st 0).confirms = [] ∧
      (full.st 7).confirms = ⟨63, 0xFFFF, .discarded⟩ :: List.replicate 15 ⟨63, 0xFFFF, .discarded⟩ ∧
      (full.st 7).confirms.length ≤ 16 ∧ (full.st 7).ring.latchedSlots ≤ 256) ∧
    ((full.st 7).inService.length ≤ 7 ∧ (∀ e ∈ (full.st 7).inService, e.level ≤ 7) ∧
      (full.st 7).inService.getLast? = some ⟨7, 7⟩ ∧ (full.st 0).inService = [] ∧ (full.st 0).fault = none ∧
      (full.st 7).fault = some { code := .confirmOverflow, detail := 63 }) :=
  ⟨⟨_, fun _ => rfl⟩, by decide +kernel⟩
/-- The payload window: the last word of a message of 9 words, the word behind it, and an empty read slot. -/
theorem witness_WindowWordsReadTheirContent_payload : (full.st 0).readSlot = none ∧
    (reading.st 1).readSlot.map (·.desc) = some 0 ∧
    reading.msg 0 = some (messageA .reading none) ∧ (8 : Fin 64).val < (messageA .reading none).length ∧
    (messageA .reading none).cells[(8 : Fin 64).val / 8]? = some 1 ∧
      (messageA .reading none).length ≤ (9 : Fin 64).val := by
  decide +kernel
theorem witness_WindowWordsReadTheirContent_global : (∃ w : GlobalWord → Word, ∀ k, w k = readWord (.global k) full) ∧
    (full.roomQueue.length ≤ 8 ∧ full.freeDescs.length ≤ 256 ∧ full.freeCells.length ≤ 1024 ∧
      (∀ e ∈ full.roomQueue, e.cellsNeeded ≤ 8) ∧ full.burst ≤ 16 ∧
      full.engine.delivery = some { deliveryA .index with desc := 255, retries := 8 } ∧ small.engine = .idle) ∧
    (full.burstLimit ≤ 16 ∧ full.retryBudget ≤ 7 ∧ full.responseLimit ≤ 255 ∧ full.tickDiv ≤ 65535 ∧
      (full.chan 63).count ≤ 255 ∧ (full.lock 31).waiters.length ≤ 8) :=
  ⟨⟨_, fun _ => rfl⟩, by decide +kernel⟩
-- R70 and R69: payload word 8 of a message of 9 words is word 0 of its second cell, word 9 reads 0, as does an empty slot
theorem test_payloadWindow : readWord (.aperture 1 (.payload 8)) { reading with cellStore := [(8, 0xBEEF), (9, 7)] } = 0xBEEF ∧
    readWord (.aperture 1 (.payload 9)) { reading with cellStore := [(8, 0xBEEF), (9, 7)] } = 0 ∧
    readWord (.aperture 2 (.payload 8)) { reading with cellStore := [(8, 0xBEEF), (9, 7)] } = 0 ∧
    readWord (.aperture 2 .readHeader0) reading = 0 := by decide +kernel
theorem witness_AccessesDecodeToTheirCommands :
    (∀ i ∈ [Instr.post 7 63 127 true 31, .setEngine 0 255 7 31, .badCommand 7 0x26, .registerWrite (.global (.lockWaiters 31)) 0xFFFFFFFF,
      .stagingWrite 7 63 1, .ack 7, .partialOrUnmappedAccess 8191 15 true], wellFormed i = true ∧
        (encodeAccess i).isSome = true) := by
  decide +kernel

/-! ### Witnesses of the invariants: a state with something to keep, and a step from it -/

/-- `s` with `c` in front of its queue. -/
def facing (c : Instr) (s : State) : State := { s with pending := [c] }

theorem step_facing {c : Instr} {s : State} (h : answersNext c { s with pending := [] } = true) :
    step (facing c s) = .next (after c { s with pending := [] }) := exec_eq_after h

theorem witness_InServiceListsStayOrdered : (facing (.ack 3) (worked88 0b11110000 [⟨1, 3⟩, ⟨0, 6⟩])).ServiceOrdered ∧
    step (facing (.ack 3) (worked88 0b11110000 [⟨1, 3⟩, ⟨0, 6⟩])) =
      .next (after (.ack 3) { worked88 0b11110000 [⟨1, 3⟩, ⟨0, 6⟩] with pending := [] }) := by
  refine ⟨?_, step_facing (by decide +kernel)⟩
  unfold State.ServiceOrdered serviceOrdered
  decide +kernel

/-- The one message of `queued (some 5)`, carrying lock 5 in station 1's class 2. -/
theorem queued_msg : ∀ d, (queued (some 5)).msg d = if d = 0 then some (messageA .queued (some 5)) else none := by decide +kernel
theorem queued_queue : ∀ a c, ((queued (some 5)).st a).queue c = if a = 1 ∧ c = 2 then [0] else [] := by decide +kernel
theorem queued_lock : ∀ l, ((queued (some 5)).lock l).state = if l = 5 then .carried 0 else .free := by decide +kernel
theorem queued_station : ∀ a, ((queued (some 5)).st a).send = .idle ∧
    ((queued (some 5)).st a).readSlot = none := by decide +kernel

theorem queued_messagesPlaced : (queued (some 5)).MessagesPlaced where
  copying a p d h := by simp [queued_station] at h
  queued a c := by
    rw [queued_queue]
    split
    · rename_i h
      refine ⟨by decide, fun d hd => ⟨messageA .queued (some 5), ?_, ?_⟩⟩
      · simp_all [queued_msg]
      · simp [messageA, h]
    · simp
  delivering r h := by simp [show (queued (some 5)).engine.delivery = none from rfl] at h
  reading a slot h := by simp [queued_station] at h
  placed d m h := by
    rw [queued_msg] at h
    split at h
    · rename_i hd
      injection h with h
      subst hd h
      show (0 : DescId) ∈ ((queued (some 5)).st 1).queue 2
      decide +kernel
    · cases h
  carried l d := by
    rw [queued_lock, queued_msg]
    by_cases hl : l = 5 <;> by_cases hd : d = 0 <;> simp_all [messageA, eq_comm]
  pledged l a := by
    rw [queued_lock]
    split <;> simp [queued_station, SendState.post]

theorem queued_ringsSound : (queued (some 5)).RingsSound := by
  unfold State.RingsSound Ring.Sound
  decide +kernel
theorem facing_messagesPlaced (c : Instr) {s : State} (h : s.MessagesPlaced) : (facing c s).MessagesPlaced :=
  ⟨h.copying, h.queued, h.delivering, h.reading, h.placed, h.carried, h.pledged⟩
theorem facing_ringsSound (c : Instr) {s : State} (h : s.RingsSound) : (facing c s).RingsSound := h

theorem witness_AbsentStationsKeepHoldingNothing :
    (facing (.retire 1) (queued (some 5))).AbsentStationsHoldNothing ∧
      (facing (.retire 1) (queued (some 5))).OfflineStationsAreIdle ∧
    (facing (.retire 1) (queued (some 5))).RoomQueueAgrees ∧ (facing (.retire 1) (queued (some 5))).MessagesPlaced ∧
    (facing (.retire 1) (queued (some 5))).RingsSound ∧
    step (facing (.retire 1) (queued (some 5))) = .next (after (.retire 1) { queued (some 5) with pending := [] }) := by
  refine ⟨?_, ?_, roomQueueAgrees_sound (by decide +kernel), facing_messagesPlaced _ queued_messagesPlaced, facing_ringsSound _ queued_ringsSound,
    step_facing (by decide +kernel)⟩
  · unfold State.AbsentStationsHoldNothing
    decide +kernel
  · unfold State.OfflineStationsAreIdle
    decide +kernel
theorem witness_ListsStayWithinLimits : (facing (.copyCompletion 0) (copying none)).ListsWithinLimits ∧
    step (facing (.copyCompletion 0) (copying none)) = .next (after (.copyCompletion 0) { copying none with pending := [] }) := by
  refine ⟨?_, step_facing (by decide +kernel)⟩
  unfold State.ListsWithinLimits
  decide +kernel

/-- The copy goes over a cell that holds an old word. -/
def copyingOver : State := { copying none with cellStore := [(15, 3)] }

theorem witness_CellStoreStaysCanonical : CellStore.wf (facing (.copyCompletion 0) copyingOver).cellStore = true ∧
    step (facing (.copyCompletion 0) copyingOver) = .next (after (.copyCompletion 0) { copyingOver with pending := [] }) :=
  ⟨by decide +kernel, step_facing (by decide +kernel)⟩

theorem copying_msg : ∀ d, (copying none).msg d = if d = 0 then some (messageA .filling none) else none := by decide +kernel

theorem copying_freeDescs : (copying none).freeDescs.Nodup ∧
    ∀ d, d ∈ (copying none).freeDescs ↔ (copying none).msg d = none := by
  simp only [copying_msg]
  decide +kernel

theorem facing_storeConserved (c : Instr) (s : State) : (facing c s).StoreConserved ↔ s.StoreConserved := Iff.rfl
theorem facing_countsAgree (c : Instr) (s : State) : (facing c s).CountsAgree ↔ s.CountsAgree := Iff.rfl

theorem existing_conserved {s : State} {m : Message} (hm : ∀ d, s.msg d = if d = 0 then some m else none) (hc : m.cells = [0, 1])
    (hf : s.freeCells = (List.finRange 1024).drop 2) (hd : s.freeDescs = (List.finRange 256).drop 1) : s.StoreConserved := by
  have hh : s.heldCells = [0, 1] := by
    unfold State.heldCells
    rw [show (fun d => ((s.msg d).map (·.cells)).getD []) = fun d => if d = 0 then [0, 1] else [] from
      funext fun d => by rw [hm]; split <;> simp [hc]]
    decide +kernel
  refine ⟨?_, by rw [hd]; decide +kernel, fun d => ?_⟩
  · rw [hf, hh]
    exact List.perm_append_comm.trans (by decide +kernel)
  · rw [hd, hm, show ((if d = 0 then some m else none) = none) ↔ d ≠ 0 by split <;> simp_all]
    revert d
    decide +kernel

theorem witness_StoreStaysConserved :
    ((facing (.copyCompletion 0) (copying none)).StoreConserved ∧
      step (facing (.copyCompletion 0) (copying none)) = .next (after (.copyCompletion 0) { copying none with pending := [] })) ∧
    (facing (.retire 1) (queued (some 5))).StoreConserved ∧ (facing (.retire 1) (queued (some 5))).MessagesPlaced ∧
    (facing (.retire 1) (queued (some 5))).RingsSound ∧
    step (facing (.retire 1) (queued (some 5))) = .next (after (.retire 1) { queued (some 5) with pending := [] }) :=
  ⟨⟨(facing_storeConserved _ _).mpr (existing_conserved copying_msg rfl (by decide +kernel) (by decide +kernel)), step_facing (by decide +kernel)⟩,
    (facing_storeConserved _ _).mpr (existing_conserved queued_msg rfl (by decide +kernel) (by decide +kernel)),
    facing_messagesPlaced _ queued_messagesPlaced,
    facing_ringsSound _ queued_ringsSound, step_facing (by decide +kernel)⟩

theorem witness_OutstandingCountsStayExact : (facing (.copyCompletion 0) (copying none)).CountsAgree ∧
    step (facing (.copyCompletion 0) (copying none)) = .next (after (.copyCompletion 0) { copying none with pending := [] }) := by
  refine ⟨(facing_countsAgree _ _).mpr ⟨fun c => ?_, roomQueueAgrees_sound (by decide +kernel), copying_freeDescs⟩, step_facing (by decide +kernel)⟩
  have hm : (copying none).messagesOn c = (List.finRange 256).countP fun d => d == 0 && (1 : ChannelId) == c := by
    refine List.countP_congr fun d _ => ?_
    rw [copying_msg]
    split <;> simp_all [messageA]
  rw [hm]
  revert c
  decide +kernel
theorem witness_InvariantsHoldAfterReset : State.reset = State.reset ∧
    exec (.reset 5) waiting = .next (after (.reset 5) waiting) :=
  ⟨rfl, exec_eq_after (by decide +kernel)⟩
theorem witness_RoomQueueHeadStaysBlocked : (facing (.cancelPost 0) awaiting).RoomHeadBlocked ∧
    step (facing (.cancelPost 0) awaiting) = .next (after (.cancelPost 0) { awaiting with pending := [] }) := by
  refine ⟨?_, step_facing (by decide +kernel)⟩
  unfold State.RoomHeadBlocked
  decide +kernel
theorem witness_WaiterListsStayExact : (facing (.releaseLock 0 5) waiting).WaitersAgree ∧
    step (facing (.releaseLock 0 5) waiting) = .next (after (.releaseLock 0 5) { waiting with pending := [] }) := by
  refine ⟨?_, step_facing (by decide +kernel)⟩
  unfold State.WaitersAgree
  decide +kernel
theorem witness_RingsStaySound : (facing .respComplete (owning .index 8)).RingsSound ∧
    step (facing .respComplete (owning .index 8)) = .next (after .respComplete { owning .index 8 with pending := [] }) := by
  refine ⟨?_, step_facing (by decide +kernel)⟩
  unfold State.RingsSound Ring.Sound
  decide +kernel
/-- The index write is open; station 0's post waits for room and station 2 for a lock, with the longest timers. -/
def timed : State :=
  { (owning .index 255).modSt 2 (fun r => { r with wait := some { lock := 5, timer := some 65535 } }) with
    roomQueue := [{ station := 0, channel := 1, cellsNeeded := 2, timer := some 65535 }] }

theorem witness_CountersStayInRange : (facing .tick timed).CountersInRange ∧
    step (facing .tick timed) = .next (after .tick { timed with pending := [] }) := by
  refine ⟨?_, step_facing (by decide +kernel)⟩
  unfold State.CountersInRange
  refine ⟨by decide +kernel, by decide +kernel, by decide +kernel, by decide +kernel, by decide +kernel, by decide +kernel, ?_, by decide +kernel⟩
  intro d c h
  have he : (facing .tick timed).engine = .transfer (deliveryA .index) ⟨0x20318, 0, 255⟩ := by decide +kernel
  rw [he] at h
  cases h
  decide

end Sys2Proof.Tests
end

section
/-! The need of a post (spec chapter 1, R3, Table 1-1): `cellsFor` is the ceiling of the library, `State.fits` compares
both free counts. -/

namespace Sys2Proof.Machine

theorem cellsFor_eq_ceilDiv (L : Nat) : cellsFor L = L ⌈/⌉ 8 := (Nat.ceilDiv_eq_add_pred_div L 8).symm

/-- The cell part of the need is the least number of cells that holds the payload. -/
theorem cellsFor_le_iff (L n : Nat) : cellsFor L ≤ n ↔ L ≤ 8 * n := by
  rw [cellsFor_eq_ceilDiv, ceilDiv_le_iff_le_mul (by decide)]

theorem le_mul_cellsFor (L : Nat) : L ≤ 8 * cellsFor L := (cellsFor_le_iff L _).mp le_rfl

theorem mul_cellsFor_lt (L : Nat) : 8 * cellsFor L < L + 8 := by
  have least := cellsFor_le_iff L (cellsFor L - 1)
  omega

/-- One row of Table 1-1: `n + 1` cells for the lengths beyond `n` cells up to `n + 1` cells. -/
theorem cellsFor_eq_succ {L : Nat} (n : Nat) (low : 8 * n + 1 ≤ L) (high : L ≤ 8 * (n + 1)) : cellsFor L = n + 1 := by
  have enough := cellsFor_le_iff L (n + 1)
  have needed := cellsFor_le_iff L n
  omega

theorem State.fits_iff (s : State) (cells : Nat) :
    s.fits cells = true ↔ 1 ≤ s.freeDescs.length ∧ cells ≤ s.freeCells.length := by
  simp only [State.fits, Bool.and_eq_true, decide_eq_true_iff]

/-- Settles O25: the two bounds and the rows of Table 1-1 follow from `cellsFor` being the least count that holds the
payload, the comparison from `State.fits_iff`. -/
theorem needAndFit : Obligations.NeedAndFit :=
  ⟨fun L _ => ⟨le_mul_cellsFor L, mul_cellsFor_lt L⟩, fun s L => s.fits_iff (cellsFor L),
    Nat.le_zero.mp ((cellsFor_le_iff 0 0).mpr le_rfl),
    fun _ => cellsFor_eq_succ 0, fun _ => cellsFor_eq_succ 1, fun _ => cellsFor_eq_succ 2, fun _ => cellsFor_eq_succ 3,
    fun _ => cellsFor_eq_succ 4, fun _ => cellsFor_eq_succ 5, fun _ => cellsFor_eq_succ 6, fun _ => cellsFor_eq_succ 7⟩

end Sys2Proof.Machine
end

section
/-! SET_QLIMIT (spec chapter 4, R61): the judgement of the Queue Unit behind the dispatch check, one lemma for each of
its three ends. -/

namespace Sys2Proof.Machine

/-- The refusing side of the dispatch check of R164; `checkStation_online` is the passing side. -/
theorem checkStation_not_online {a : StationId} {s : State} (h : (s.st a).state ≠ .online) :
    checkStation a s = some .notOnline := if_neg h

/-- The two checks of R61 in their order, and the new limit when both pass. -/
def judgeQlimit (a : StationId) (c : ClassId) (limit : Fin 256) (s : State) : State × ResultCode :=
  if limit = 0 then (s, .badOperand)
  else if limit.val < ((s.st a).queue c).length then (s, .inUse)
  else (s.modSt a fun r => { r with limits := put r.limits c limit }, .ok)

/-- Ties `judgeQlimit` to the model. -/
theorem exec_setQlimit (a : StationId) (c : ClassId) (limit : Fin 256) (s : State) :
    exec (.setQlimit a c limit) s = .next (runCommand a 0x0D (checkStation a) (judgeQlimit a c limit) s) := rfl

section
variable {a : StationId} {c : ClassId} {limit : Fin 256} {s : State}

theorem judgeQlimit_of_zero (zero : limit.val = 0) : judgeQlimit a c limit s = (s, .badOperand) :=
  if_pos (Fin.ext zero)

theorem judgeQlimit_of_pos (pos : 1 ≤ limit.val) :
    judgeQlimit a c limit s =
      if limit.val < ((s.st a).queue c).length then (s, .inUse)
      else (s.modSt a fun r => { r with limits := put r.limits c limit }, .ok) :=
  if_neg (Fin.pos_iff_ne_zero.mp pos)

theorem judgeQlimit_of_lt_length (pos : 1 ≤ limit.val) (short : limit.val < ((s.st a).queue c).length) :
    judgeQlimit a c limit s = (s, .inUse) :=
  (judgeQlimit_of_pos pos).trans (if_pos short)

theorem judgeQlimit_of_length_le (pos : 1 ≤ limit.val) (room : ((s.st a).queue c).length ≤ limit.val) :
    judgeQlimit a c limit s = (s.modSt a fun r => { r with limits := put r.limits c limit }, .ok) :=
  (judgeQlimit_of_pos pos).trans (if_neg room.not_gt)

/-- Past the dispatch check the answer is the judgement's. -/
theorem exec_setQlimit_of_online (hb : s.bown = false) (online : (s.st a).state = .online) :
    exec (.setQlimit a c limit) s =
      .next (answered a 0x0D (judgeQlimit a c limit s).2 (judgeQlimit a c limit s).1) := by
  rw [exec_setQlimit, runCommand_eq hb (checkStation_online online)]

theorem exec_setQlimit_of_not_online (hb : s.bown = false) (away : (s.st a).state ≠ .online) :
    exec (.setQlimit a c limit) s = .next (answered a 0x0D .notOnline s) := by
  rw [exec_setQlimit, runCommand_refused hb (checkStation_not_online away)]
end

/-- Settles O29: not ONLINE the dispatch check answers, ONLINE the judgement, whose three ends are the cases of R61. -/
theorem setQlimitReplacesTheLimit : Obligations.SetQlimitReplacesTheLimit := by
  intro a c limit s hb
  refine ⟨exec_setQlimit_of_not_online hb, fun online => ?_⟩
  rw [exec_setQlimit_of_online hb online]
  refine ⟨fun zero => ?refused_zero, fun pos short => ?refused_short, fun pos room => ?accepted⟩
  case refused_zero => rw [judgeQlimit_of_zero zero]
  case refused_short => rw [judgeQlimit_of_lt_length pos short]
  case accepted => rw [judgeQlimit_of_length_le pos room]

end Sys2Proof.Machine
end

section
/-! POP_CONFIRM (spec chapter 5, R89): the pop of the own confirmation list behind the dispatch check, one lemma for each
shape of the list. -/

namespace Sys2Proof.Machine

/-- The pop of R89: the tail of the list stays, and an empty list is refused. -/
def popHead (a : StationId) (s : State) : State × ResultCode :=
  match (s.st a).confirms with
  | _ :: rest => (s.modSt a fun r => { r with confirms := rest }, .ok)
  | [] => (s, .empty)

/-- Ties `popHead` to the model. -/
theorem exec_popConfirm (a : StationId) (s : State) :
    exec (.popConfirm a) s = .next (runCommand a 0x0C (checkStation a) (popHead a) s) := rfl

section
variable {a : StationId} {s : State}

theorem popHead_of_cons {e : Confirmation} {rest : List Confirmation} (entries : (s.st a).confirms = e :: rest) :
    popHead a s = (s.modSt a fun r => { r with confirms := rest }, .ok) := by
  rw [popHead, entries]

theorem popHead_of_nil (none_left : (s.st a).confirms = []) : popHead a s = (s, .empty) := by
  rw [popHead, none_left]

/-- Past the dispatch check the answer is the pop's. -/
theorem exec_popConfirm_of_online (hb : s.bown = false) (online : (s.st a).state = .online) :
    exec (.popConfirm a) s = .next (answered a 0x0C (popHead a s).2 (popHead a s).1) := by
  rw [exec_popConfirm, runCommand_eq hb (checkStation_online online)]

theorem exec_popConfirm_of_not_online (hb : s.bown = false) (away : (s.st a).state ≠ .online) :
    exec (.popConfirm a) s = .next (answered a 0x0C .notOnline s) := by
  rw [exec_popConfirm, runCommand_refused hb (checkStation_not_online away)]
end

/-- Settles O30: not ONLINE the dispatch check answers, ONLINE the pop, whose two ends are the shapes of the list. -/
theorem popConfirmRemovesTheHead : Obligations.PopConfirmRemovesTheHead := by
  intro a s hb
  refine ⟨exec_popConfirm_of_not_online hb, fun online => ?_⟩
  rw [exec_popConfirm_of_online hb online]
  refine ⟨fun e rest entries => ?popped, fun none_left => ?refused_empty⟩
  case popped => rw [popHead_of_cons entries]
  case refused_empty => rw [popHead_of_nil none_left]

end Sys2Proof.Machine
end

section
/-! ACK (spec chapter 8, R147 to R149): the read that acknowledges a chosen source, and the vector field, bits 7 to 0, of
the word it returns. -/

namespace Sys2Proof.Machine

section
variable (r : StationRec) (n : SourceId)

theorem StationRec.vector_lt : r.vector n < 2 ^ 8 := by
  have base := r.vectorBase.isLt
  unfold StationRec.vector
  omega

/-- Bits 7 to 3 of the vector are those of the base. -/
theorem StationRec.vector_div_eight : r.vector n / 8 = r.vectorBase.toNat / 8 := by
  unfold StationRec.vector
  omega

/-- Bits 2 to 0 of the vector are the source number, whatever the base has there. -/
theorem StationRec.vector_mod_eight : r.vector n % 8 = n.val := by
  unfold StationRec.vector
  omega

/-- The other fields of the acknowledge word start at bit 8 and above, so its low byte is the vector. -/
theorem StationRec.ackWord_toNat_mod : (r.ackWord n).toNat % 2 ^ 8 = r.vector n := by
  have fits := r.vector_lt n
  rw [StationRec.ackWord, pack_toNat]
  simp only [placed]
  omega

theorem StationRec.ackWord_vectorField : ((r.ackWord n).extractLsb' 0 8).toNat = r.vector n := by
  rw [BitVec.extractLsb'_toNat, Nat.shiftRight_zero, r.ackWord_toNat_mod n]

theorem StationRec.ackWord_bits_seven_to_three :
    (r.ackWord n).extractLsb' 3 5 = r.vectorBase.extractLsb' 3 5 := by
  have field := r.ackWord_toNat_mod n
  have high := r.vector_div_eight n
  refine BitVec.eq_of_toNat_eq ?_
  simp only [BitVec.extractLsb'_toNat, Nat.shiftRight_eq_div_pow]
  omega

theorem StationRec.ackWord_bits_two_to_zero : (r.ackWord n).extractLsb' 0 3 = BitVec.ofNat 3 n.val := by
  have field := r.ackWord_toNat_mod n
  have low := r.vector_mod_eight n
  refine BitVec.eq_of_toNat_eq ?_
  simp only [BitVec.extractLsb'_toNat, Nat.shiftRight_zero, BitVec.toNat_ofNat]
  omega

@[simp] theorem StationRec.acknowledge_vectorBase : (r.acknowledge n).vectorBase = r.vectorBase := rfl
end

section
variable {a : StationId} {n : SourceId} {s : State}

/-- Ties the command ACK to its meaning. -/
theorem exec_ack (a : StationId) (s : State) : exec (.ack a) s = execAck a s := rfl

/-- An acknowledge on a free bus with a source to choose (R147). -/
theorem exec_ack_of_chosen (hb : s.bown = false) (chosen : (s.st a).chosenSource = some n) :
    exec (.ack a) s =
      .next (answerComplete (some ((s.st a).ackWord n)) (s.modSt a fun r => r.acknowledge n)) := by
  rw [exec_ack, execAck, if_neg (ne_true_of_eq_false hb), chosen]

theorem vectorBase_after_ack (data : Option Word) :
    ((answerComplete data (s.modSt a fun r => r.acknowledge n)).st a).vectorBase = (s.st a).vectorBase := by
  simp
end

/-- Settles O47: the answered word is `ackWord`, whose low byte is the vector; the two worked bases are values of it. -/
theorem vectorIsTheBaseWithTheSource : Obligations.VectorIsTheBaseWithTheSource := by
  intro a n s hb chosen
  refine ⟨_, (s.st a).ackWord n, exec_ack_of_chosen hb chosen, rfl, StationRec.ackWord_bits_seven_to_three _ n,
    StationRec.ackWord_bits_two_to_zero _ n, fun base => ?base_40, fun base => ?base_9B, vectorBase_after_ack _⟩
  case base_40 => rw [StationRec.ackWord_vectorField, StationRec.vector, base]; rfl
  case base_9B => rw [StationRec.ackWord_vectorField, StationRec.vector, base]; rfl

end Sys2Proof.Machine
end

section
/-! The laws of the rings as a step invariant (spec chapter 7, R117 to R123, R131 to R134). `RingLaw` is the law of one
station; a delivery is in progress for at most one of them, so an engine that has let its delivery go leaves no ring
DISABLING, and one that starts a delivery takes an eligible station. -/

namespace Sys2Proof.Machine

-- One proof at a time: many at once take more threads than the check allows.
set_option Elab.async false

/-- The law of one station's ring, given whether a delivery for the station is in progress. -/
def RingLaw (r : StationRec) (delivering : Bool) : Prop :=
  r.ring.Sound ∧
    (delivering = true → r.state = .online ∧ (r.ring.state = .active ∨ r.ring.state = .disabling) ∧
      r.ring.fill < r.ring.latchedSlots) ∧
    (r.ring.state = .disabling → delivering = true)

theorem State.ringsSound_iff (s : State) : s.RingsSound ↔ ∀ a, RingLaw (s.st a) (s.delivering a) := Iff.rfl

/-- What the law reads of a ring. -/
structure SameRing (r t : StationRec) : Prop where
  ringState : t.ring.state = r.ring.state
  latchedSlots : t.ring.latchedSlots = r.ring.latchedSlots
  produced : t.ring.produced = r.ring.produced
  consumed : t.ring.consumed = r.ring.consumed

theorem SameRing.fill {r t : StationRec} (h : SameRing r t) : t.ring.fill = r.ring.fill := by
  simp only [Ring.fill, h.produced, h.consumed]

theorem State.delivering_congr {s t : State} (h : t.engine.delivery = s.engine.delivery) (a : StationId) :
    t.delivering a = s.delivering a := by
  simp only [State.delivering, h]

/-- The state of a station counts only while a delivery for it is in progress. -/
theorem RingLaw.congr {r t : StationRec} {delivering : Bool} (law : RingLaw r delivering) (h : SameRing r t)
    (state : delivering = true → t.state = r.state) : RingLaw t delivering := by
  simp only [RingLaw, Ring.Sound, h.ringState, h.latchedSlots, h.fill]
  obtain ⟨sound, inProgress, disabling⟩ := law
  exact ⟨sound, fun hd => by rw [state hd]; exact inProgress hd, disabling⟩

/-- A state whose rings and deliveries read as before keeps the laws. -/
theorem State.RingsSound.congr {s t : State} (h : s.RingsSound) (rings : ∀ a, SameRing (s.st a) (t.st a))
    (states : ∀ a, s.delivering a = true → (t.st a).state = (s.st a).state)
    (deliveries : ∀ a, t.delivering a = s.delivering a) : t.RingsSound := fun a => by
  rw [deliveries a]
  exact RingLaw.congr (h a) (rings a) (states a)

theorem State.delivering_iff (s : State) (a : StationId) :
    s.delivering a = true ↔ ∃ d, s.engine.delivery = some d ∧ d.station = a := by
  unfold State.delivering
  cases s.engine.delivery <;> simp

@[simp] theorem EngineState.delivery_ticked (e : EngineState) : e.ticked.delivery = e.delivery := by
  cases e <;> rfl

/-! ### Single rings -/

theorem slotCounts_pos {n : Nat} (h : n ∈ slotCounts) : 4 ≤ n ∧ n ≤ 256 := by
  simp only [slotCounts, List.mem_cons, List.not_mem_nil, or_false] at h
  omega

theorem Ring.sound_of_disabled {g : Ring} (h : g.state = .disabled) : g.Sound := by
  simp [Ring.Sound, h]

@[simp] theorem Ring.fill_set_state (g : Ring) (st : RingState) : ({ g with state := st } : Ring).fill = g.fill := rfl

/-- A ring with a free or a full count of slots is sound once its state follows the fill. -/
theorem Ring.sound_byFill {g : Ring} (slots : g.latchedSlots ∈ slotCounts) (fill : g.fill ≤ g.latchedSlots) :
    ({ g with state := g.byFill } : Ring).Sound := by
  by_cases full : g.fill = g.latchedSlots
  · simp [Ring.Sound, Ring.byFill, full, slots]
  · have room : g.fill < g.latchedSlots := by omega
    simp [Ring.Sound, Ring.byFill, full, slots, room, fill]

/-- A state with no further law than the slot count and the fill. -/
theorem Ring.sound_of_plain_state {g : Ring} (st : RingState) (slots : g.latchedSlots ∈ slotCounts)
    (fill : g.fill ≤ g.latchedSlots) (active : st ≠ .active) (stalled : st ≠ .stalled) :
    ({ g with state := st } : Ring).Sound :=
  ⟨fun _ => ⟨slots, fill⟩, fun h => absurd h active, fun h => absurd h stalled⟩

theorem Ring.byFill_cases (g : Ring) : g.byFill = .active ∨ g.byFill = .stalled := by
  unfold Ring.byFill
  split <;> simp

/-- The ring with one slot more filled (R132). -/
def Ring.advanced (g : Ring) : Ring := { g with produced := g.produced + 1 }

/-- One slot more is filled where one was free. -/
theorem Ring.fill_advanced {g : Ring} (slots : g.latchedSlots ∈ slotCounts) (room : g.fill < g.latchedSlots) :
    g.advanced.fill = g.fill + 1 := by
  have most := (slotCounts_pos slots).2
  simp only [Ring.fill, Ring.advanced] at room ⊢
  have : g.produced + 1 - g.consumed = (g.produced - g.consumed) + 1 := by ring
  rw [this, BitVec.toNat_add, show (1 : Half).toNat = 1 from rfl]
  omega

/-- The ring behind a delivery: an ACTIVE one follows its fill, a DISABLING one is DISABLED (R132, R122). -/
def Ring.settled (g : Ring) : Ring :=
  { g with state := match g.state with
      | .active => g.byFill
      | .disabling => .disabled
      | other => other }

theorem Ring.settled_atRest {g : Ring} (state : g.state = .active ∨ g.state = .disabling)
    (slots : g.latchedSlots ∈ slotCounts) (fill : g.fill ≤ g.latchedSlots) :
    g.settled.Sound ∧ g.settled.state ≠ .disabling := by
  rcases state with state | state
  · have following : g.settled = { g with state := g.byFill } := by simp [Ring.settled, state]
    rw [following]
    refine ⟨Ring.sound_byFill slots fill, ?_⟩
    rcases g.byFill_cases with e | e <;> simp [e]
  · simp [Ring.settled, state, Ring.sound_of_disabled]

/-! ### The engine takes or lets go of a delivery -/

/-- The laws while no delivery is in progress: every ring is sound, and none is DISABLING. -/
def State.RingsAtRest (s : State) : Prop := ∀ a, (s.st a).ring.Sound ∧ (s.st a).ring.state ≠ .disabling

theorem State.RingsSound.atRest {s : State} (h : s.RingsSound) (idle : s.engine.delivery = none) : s.RingsAtRest := by
  intro a
  obtain ⟨sound, -, disabling⟩ := h a
  exact ⟨sound, fun hd => by simpa [State.delivering, idle] using disabling hd⟩

theorem State.RingsAtRest.sound {s : State} (h : s.RingsAtRest) (idle : s.engine.delivery = none) : s.RingsSound := by
  intro a
  simp [State.delivering, idle, h a]

/-- A delivery formed is for a station that is eligible. -/
theorem State.nextDelivery_eligible {s : State} {d : Delivery} (h : s.nextDelivery = some d) :
    s.eligible d.station = true := by
  unfold State.nextDelivery at h
  split at h
  · rename_i a found
    have : d.station = a := by
      unfold State.formDelivery at h
      split at h
      · simp at h
      · split at h
        · simp at h
        · split at h
          · simp at h
          · simp only [Option.some.injEq] at h
            rw [← h]
    rw [this]
    exact List.find?_some found
  · simp at h

theorem State.eligible_iff (s : State) (a : StationId) : s.eligible a = true ↔
    (s.st a).state = .online ∧ (s.st a).ring.state = .active ∧ (s.st a).urgentClass.isSome = true := by
  simp only [State.eligible, Bool.and_eq_true, decide_eq_true_eq, and_assoc]

/-- Rings at rest stay sound when the engine takes a delivery for an eligible station. -/
theorem State.RingsAtRest.sound_of_taken {s t : State} (h : s.RingsAtRest) {d : Delivery}
    (eligible : s.eligible d.station = true) (stations : ∀ a, t.st a = s.st a) (taken : t.engine.delivery = some d) :
    t.RingsSound := by
  intro a
  obtain ⟨sound, resting⟩ := h a
  obtain ⟨online, active, -⟩ := (s.eligible_iff _).mp eligible
  rw [stations a]
  refine ⟨sound, fun hd => ?_, fun hd => absurd hd resting⟩
  obtain ⟨d', hd', rfl⟩ := (t.delivering_iff a).mp hd
  obtain rfl : d = d' := by simpa [taken] using hd'
  exact ⟨online, .inl active, sound.2.1 active⟩

theorem startIfIdle_keeps_ringsSound {s : State} (h : s.RingsSound) : (startIfIdle s).RingsSound := by
  unfold startIfIdle
  split
  · rename_i d idle next
    exact (h.atRest (by simp [idle, EngineState.delivery])).sound_of_taken (State.nextDelivery_eligible next)
      (fun a => by simp [State.st]) rfl
  · exact h

theorem releaseToIdle_ringsSound {s : State} (h : s.RingsAtRest) : (releaseToIdle s).RingsSound :=
  startIfIdle_keeps_ringsSound (State.RingsAtRest.sound (fun a => h a) rfl)

theorem continueBurst_ringsSound {s : State} (h : s.RingsAtRest) : (continueBurst s).RingsSound := by
  unfold continueBurst
  split
  · rename_i d next
    exact h.sound_of_taken (State.nextDelivery_eligible next) (fun a => by simp) rfl
  · exact releaseToIdle_ringsSound h

theorem advanceBurst_ringsSound {s : State} (h : s.RingsAtRest) : (advanceBurst s).RingsSound := by
  unfold advanceBurst
  split
  · exact continueBurst_ringsSound h
  · exact releaseToIdle_ringsSound h

/-- The ring of one station changes and the deliveries do not: the laws of the others stand. -/
theorem State.RingsSound.modSt {s : State} (h : s.RingsSound) {a : StationId} {f : StationRec → StationRec}
    (law : RingLaw (f (s.st a)) (s.delivering a)) : (s.modSt a f).RingsSound := by
  intro b
  rw [State.delivering_congr rfl]
  by_cases hb : b = a
  · subst hb; rw [State.st_modSt_same]; exact law
  · rw [State.st_modSt_ne _ _ hb]; exact h b

/-- A ring that is DISABLED meets the law of a station with no delivery. -/
theorem RingLaw.of_disabled {r : StationRec} (h : r.ring.state = .disabled) : RingLaw r false :=
  ⟨Ring.sound_of_disabled h, by simp, by simp [h]⟩

theorem Ring.sound_enabled {g : Ring} (valid : g.setupValid = true) : g.enabled.Sound := by
  have slots : g.slots.toNat ∈ slotCounts := ((setupValid_iff g).mp valid).2.1
  have positive := (slotCounts_pos slots).1
  have empty : g.enabled.fill = 0 := by simp [Ring.enabled, Ring.fill]
  simp only [Ring.Sound, empty]
  simp only [Ring.enabled]
  simp [slots]
  omega

@[simp] theorem Ring.consume_latchedSlots (g : Ring) (v : Half) : (g.consume v).latchedSlots = g.latchedSlots := by
  unfold Ring.consume; split <;> rfl

@[simp] theorem Ring.consume_fill (g : Ring) (v : Half) : (g.consume v).fill = (g.produced - v).toNat := by
  unfold Ring.consume; split <;> rfl

/-- A ring that follows its fill still does, and any other keeps its state (R121). -/
theorem Ring.consume_state (g : Ring) (v : Half) : (g.consume v).state =
    if g.state = .active ∨ g.state = .stalled then
      (if (g.produced - v).toNat = g.latchedSlots then .stalled else .active)
    else g.state := by
  unfold Ring.consume
  cases g.state <;> rfl

theorem Ring.consumedBound_le (g : Ring) (inProgress : Bool) : g.consumedBound inProgress ≤ g.latchedSlots := by
  unfold Ring.consumedBound
  split <;> omega

/-- An accepted RING_CONSUMED write keeps the law: the bound leaves a slot free while a delivery is in progress (R120). -/
theorem RingLaw.consume {r : StationRec} {delivering : Bool} {v : Half} (law : RingLaw r delivering)
    (enabled : r.ring.state ≠ .disabled)
    (bound : (r.ring.produced - v).toNat ≤ r.ring.consumedBound delivering) :
    RingLaw { r with ring := r.ring.consume v } delivering := by
  obtain ⟨sound, inProgress, disabling⟩ := law
  obtain ⟨slots, -⟩ := sound.1 enabled
  have positive := (slotCounts_pos slots).1
  have fill := bound.trans (r.ring.consumedBound_le delivering)
  refine ⟨?_, fun hd => ?_, fun hs => ?_⟩
  · simp only [Ring.Sound, Ring.consume_latchedSlots, Ring.consume_fill, Ring.consume_state]
    refine ⟨fun _ => ⟨slots, fill⟩, ?_, ?_⟩
    · intro active
      have room : (r.ring.produced - v).toNat ≠ r.ring.latchedSlots := fun full => by
        simp only [full, if_true] at active
        split at active
        · simp at active
        · rename_i following
          exact following (.inl active)
      omega
    · intro stalled
      by_contra room
      simp only [room, if_false] at stalled
      split at stalled
      · simp at stalled
      · rename_i following
        exact following (.inr stalled)
  · obtain ⟨online, state, -⟩ := inProgress hd
    simp only [Ring.consume_latchedSlots, Ring.consume_fill, Ring.consume_state]
    simp only [hd, Ring.consumedBound, if_true] at bound
    refine ⟨online, ?_, by omega⟩
    rcases state with state | state
    · simp only [state, true_or, if_true]
      left
      rw [if_neg (by omega)]
    · simp [state]
  · apply disabling
    simp only [Ring.consume_state] at hs
    cases h : r.ring.state <;> simp [h] at hs ⊢ <;> split at hs <;> simp at hs

/-! ### The end of a delivery -/

/-- While the delivery for one station is in progress, every other ring is at rest. -/
theorem State.RingsSound.atRest_other {s : State} (h : s.RingsSound) {d : Delivery} (hd : s.engine.delivery = some d)
    {a : StationId} (ha : a ≠ d.station) : (s.st a).ring.Sound ∧ (s.st a).ring.state ≠ .disabling := by
  obtain ⟨sound, -, disabling⟩ := h a
  refine ⟨sound, fun hs => ?_⟩
  obtain ⟨d', hd', station⟩ := (s.delivering_iff a).mp (disabling hs)
  obtain rfl : d = d' := by simpa [hd] using hd'
  exact ha station.symm

theorem State.RingsSound.ofDelivery {s : State} (h : s.RingsSound) {d : Delivery} (hd : s.engine.delivery = some d) :
    (s.st d.station).state = .online ∧
      ((s.st d.station).ring.state = .active ∨ (s.st d.station).ring.state = .disabling) ∧
      (s.st d.station).ring.fill < (s.st d.station).ring.latchedSlots ∧
      (s.st d.station).ring.latchedSlots ∈ slotCounts := by
  obtain ⟨sound, inProgress, -⟩ := h d.station
  obtain ⟨online, state, room⟩ := inProgress ((s.delivering_iff _).mpr ⟨d, hd, rfl⟩)
  refine ⟨online, state, room, (sound.1 ?_).1⟩
  rcases state with state | state <;> simp [state]

/-- What the end of a delivery for `d.station` leaves: that ring sound and not DISABLING, the others as they were. -/
theorem State.RingsSound.atRest_of_ended {s t : State} (h : s.RingsSound) {d : Delivery}
    (hd : s.engine.delivery = some d) (other : ∀ a, a ≠ d.station → (t.st a).ring = (s.st a).ring)
    (own : (t.st d.station).ring.Sound ∧ (t.st d.station).ring.state ≠ .disabling) : t.RingsAtRest := by
  intro a
  by_cases ha : a = d.station
  · subst ha; exact own
  · rw [other a ha]; exact h.atRest_other hd ha

theorem disableRing_ring (a : StationId) (s : State) :
    ((disableRing a s).st a).ring = { (s.st a).ring with state := .disabled } := by
  simp [disableRing_eq, StationRec.ringOff]

theorem faultDelivery_keeps_ringsSound {s : State} (h : s.RingsSound) {d : Delivery} (hd : s.engine.delivery = some d)
    (code : FaultCode) (addr : Word) : (faultDelivery d code addr s).RingsSound := by
  obtain ⟨-, -, room, slots⟩ := h.ofDelivery hd
  refine releaseToIdle_ringsSound (h.atRest_of_ended hd (fun a ha => ?_) ?_)
  · dsimp only; split <;> simp [ha]
  · dsimp only
    split
    · simp [disableRing_ring, Ring.sound_of_disabled]
    · simpa using Ring.sound_of_plain_state .faulted slots room.le (by simp) (by simp)

theorem settleRing_ring (a : StationId) (s : State) : ((settleRing a s).st a).ring = (s.st a).ring.settled := by
  unfold settleRing Ring.settled
  cases h : (s.st a).ring.state <;> simp [disableRing_ring, ← h]

theorem advanceRing_ring (d : Delivery) (s : State) :
    ((advanceRing d s).st d.station).ring = (s.st d.station).ring.advanced := by
  simp [advanceRing, Ring.advanced]

/-- Behind a delivery the ring it went to has one slot more filled and is settled. -/
theorem completeDelivery_keeps_ringsSound {s : State} (h : s.RingsSound) {d : Delivery}
    (hd : s.engine.delivery = some d) : (completeDelivery d s).RingsSound := by
  obtain ⟨-, state, room, slots⟩ := h.ofDelivery hd
  refine advanceBurst_ringsSound (h.atRest_of_ended hd (fun a ha => ?_) ?_)
  · simp [ha, advanceRing]
  · simp only [settleRing_ring, setSource_stations, endMessage_stations, advanceRing_ring]
    exact Ring.settled_atRest state slots (by rw [Ring.fill_advanced slots room]; exact room)

/-! ### A station's way to OFFLINE -/

theorem enterOffline_ring (a : StationId) (s : State) :
    ((enterOffline a s).st a).ring = { (s.st a).ring with state := .disabled } := by
  simp [enterOffline]

theorem quiesce_keeps_ringsSound {s : State} (h : s.RingsSound) (a : StationId) : (quiesce a s).RingsSound := by
  unfold quiesce
  split
  · rename_i quiet
    obtain ⟨-, -, idle⟩ := quiet
    intro b
    rw [State.delivering_congr (s := s) (by simp)]
    by_cases hb : b = a
    · subst hb
      rw [idle]
      exact RingLaw.of_disabled (by simp [enterOffline_ring])
    · exact RingLaw.congr (h b) (by constructor <;> simp [enterOffline, hb]) (by simp [enterOffline, hb])
  · exact h

theorem State.bown_eq_true_iff (s : State) : s.bown = true ↔ ∃ d c, s.engine = .transfer d c := by
  unfold State.bown
  cases s.engine <;> simp

/-- A station may leave ONLINE when its delivery, where it has one, is abandoned (R134). -/
theorem abandonDelivery_ringsSound {s w : State} (h : s.RingsSound) (hb : s.bown = false) {a : StationId}
    (rings : ∀ b, (w.st b).ring = (s.st b).ring) (states : ∀ b, b ≠ a → (w.st b).state = (s.st b).state)
    (engine : w.engine = s.engine) : (abandonDelivery a w).RingsSound := by
  have kept : w.delivering a = false → w.RingsSound := fun none => by
    refine h.congr (fun b => by constructor <;> simp [rings]) (fun b hd => states b ?_)
      (State.delivering_congr (by rw [engine]))
    rintro rfl
    rw [← State.delivering_congr (by rw [engine]), none] at hd
    exact absurd hd (by simp)
  unfold abandonDelivery
  split
  · rename_i d wait
    have hd : s.engine.delivery = some d := by rw [← engine, wait]; rfl
    split
    · rename_i own
      subst own
      obtain ⟨-, -, room, slots⟩ := h.ofDelivery hd
      refine releaseToIdle_ringsSound (h.atRest_of_ended hd (fun b ne => by simp [ne, rings]) ?_)
      simp only [State.st_modSt_same, setMessageState_reads]
      split
      · simp [Ring.sound_of_disabled]
      · rename_i plain
        exact ⟨by rw [rings]; exact (h d.station).1, plain⟩
    · rename_i other
      exact kept (by simpa [State.delivering, wait, EngineState.delivery] using other)
  · rename_i noWait
    refine kept ?_
    rw [State.delivering]
    cases e : w.engine with
    | idle => rfl
    | busWait d => exact absurd e (noWait d)
    | transfer d c => exact absurd ((s.bown_eq_true_iff).mpr ⟨d, c, engine ▸ e⟩) (by simp [hb])

theorem enterQuiescing_keeps_ringsSound {s : State} (h : s.RingsSound) (hb : s.bown = false) (a : StationId) :
    (enterQuiescing a s).RingsSound := by
  unfold enterQuiescing
  have abandoned := abandonDelivery_ringsSound (a := a)
    (w := leaveWait a .cancelled (removeWaiting (fun e => e.station == a) .cancelled false
      (s.modSt a fun r => { r with state := .quiescing }))) h hb
    (fun b => by by_cases e : b = a <;> simp [e]) (fun b ne => by simp [ne]) (by simp)
  exact quiesce_keeps_ringsSound (abandoned.modSt (f := StationRec.silence) (abandoned a)) a

/-! ### Every update -/

/-- Every update keeps the laws of the rings. The updates not named read nothing that the laws read. -/
theorem ringsSound_keptByUpdates : KeptByUpdates State.RingsSound := by
  constructor
  case onPlain =>
    intro a f s h same
    exact h.modSt (RingLaw.congr (h a) ⟨same.ringState, same.latchedSlots, same.produced, same.consumed⟩
      fun _ => same.state)
  case onAttach =>
    intro a s h _ offline
    refine h.modSt ?_
    have none : s.delivering a = false := by
      by_contra hd
      simpa [offline] using ((h a).2.1 (by simpa using hd)).1
    rw [none]
    exact RingLaw.of_disabled rfl
  case onQuiescing =>
    intro a s h hb _
    exact enterQuiescing_keeps_ringsSound h hb a
  case onEnableRing =>
    intro a s h _ _ disabled valid
    refine startIfIdle_keeps_ringsSound (h.modSt ⟨Ring.sound_enabled valid, fun hd => ?_, by simp [Ring.enabled]⟩)
    obtain ⟨-, state, -⟩ := (h a).2.1 hd
    simp [disabled] at state
  case onDisabling =>
    intro a s h _ _ active delivering
    obtain ⟨⟨slots, -⟩, inProgress, -⟩ := h a
    obtain ⟨online, -, room⟩ := inProgress delivering
    obtain ⟨slots, -⟩ := slots (by simp [active])
    exact h.modSt ⟨Ring.sound_of_plain_state _ slots room.le (by simp) (by simp),
      fun _ => ⟨online, .inr rfl, room⟩, fun _ => delivering⟩
  case onDisableRing =>
    intro a s h _ _ state
    rw [disableRing_eq]
    have none : s.delivering a = false := by
      by_contra hd
      obtain ⟨-, inProgress, -⟩ := (h a).2.1 (by simpa using hd)
      rcases state with ⟨-, none⟩ | stalled | faulted
      · exact hd none
      · simp [stalled] at inProgress
      · simp [faulted] at inProgress
    refine h.modSt ?_
    rw [none]
    exact RingLaw.of_disabled rfl
  case onResumeRing =>
    intro a s h _ _ faulted
    obtain ⟨sound, inProgress, -⟩ := h a
    obtain ⟨slots, fill⟩ := sound.1 (by simp [faulted])
    refine startIfIdle_keeps_ringsSound (h.modSt ⟨Ring.sound_byFill slots fill, fun hd => ?_, fun hs => ?_⟩)
    · obtain ⟨-, state, -⟩ := inProgress hd
      simp [faulted] at state
    · rcases (s.st a).ring.byFill_cases with e | e <;> simp [e] at hs
  case onConsume =>
    intro a v s h _ enabled bound
    exact startIfIdle_keeps_ringsSound (h.modSt (RingLaw.consume (h a) enabled bound))
  case onReset =>
    intro v q a
    simp [State.reset, State.st, State.delivering, EngineState.delivery, StationRec.reset, Ring.reset,
      Ring.Sound]
  case onTick =>
    intro s h
    exact h.congr (fun a => by constructor <;> simp [tickAll, State.st, StationRec.ticked])
      (fun a _ => by simp [tickAll, State.st, StationRec.ticked]) (State.delivering_congr (by simp [tickAll]))
  case onFaultDelivery =>
    intro d c code addr s h engine
    exact faultDelivery_keeps_ringsSound h (by rw [engine]; rfl) code addr
  case onCopyCompletion =>
    intro a p d m s h _ _
    refine quiesce_keeps_ringsSound (startIfIdle_keeps_ringsSound (h.congr (fun b => ?_) (fun b _ => ?_) ?_)) a
    · constructor <;> simp
    · simp
    · exact State.delivering_congr (by simp)
  case onBusGrant =>
    intro d s h engine _
    exact h.congr (fun a => by constructor <;> rfl) (fun a _ => rfl) (State.delivering_congr (by rw [engine]; rfl))
  case onNextWrite =>
    intro d c w s h engine _
    exact h.congr (fun a => by constructor <;> rfl) (fun a _ => rfl)
      (fun a => by simp [State.delivering, EngineState.delivery, issueWrite, engine])
  case onComplete =>
    intro d c s h engine _
    exact completeDelivery_keeps_ringsSound h (by rw [engine]; rfl)
  case onRetry =>
    intro d c s h engine _
    exact h.congr (fun a => by constructor <;> rfl) (fun a _ => rfl)
      (fun a => by simp [State.delivering, EngineState.delivery, engine])
  case onClearFlags | onQueueLimit | onPopConfirm | onClearOverflow | onAcknowledge | onEndService =>
    intros
    exact State.RingsSound.modSt ‹_› (‹State.RingsSound _› _)
  case onRelease =>
    intro a slot s h _ _
    have emptied := h.modSt (f := fun r => { r with readSlot := none }) (h a)
    exact emptied.congr (fun b => by constructor <;> simp) (fun b _ => by simp) (State.delivering_congr (by simp))
  case onAnswer | onPending | onCount | onSetTick | onSetEngine | onReassert | onOpenChannel | onTakeLock =>
    intros
    exact State.RingsSound.congr ‹_› (fun _ => by constructor <;> rfl) (fun _ _ => rfl) (fun _ => rfl)
  all_goals
    intros
    exact State.RingsSound.congr ‹_› (fun _ => by constructor <;> simp) (fun _ _ => by simp)
      (State.delivering_congr (by simp))

/-- Settles O58: every update keeps the laws of the rings. -/
theorem ringsStaySound : Obligations.RingsStaySound := ringsSound_keptByUpdates.keepsStep

end Sys2Proof.Machine
end

section
/-! The waiter lists as a step invariant (spec chapter 6, R95, R96, R112). Every update of the locks is one of three: a
lock's state changes under its waiters, a station leaves the list of the lock it waits for, a station joins one. -/

namespace Sys2Proof.Machine

-- One proof at a time: many at once take more threads than the check allows.
set_option Elab.async false

/-- The lock station `a` waits for. -/
def State.waitsFor (s : State) (a : StationId) : Option LockId := (s.st a).wait.map (·.lock)

/-- What `WaitersAgree` says, in terms of `waitsFor`. -/
theorem State.waitersAgree_iff (s : State) : s.WaitersAgree ↔
    (∀ l, (s.lock l).waiters.Nodup) ∧ (∀ a l, a ∈ (s.lock l).waiters ↔ s.waitsFor a = some l) ∧
      (∀ a, s.waitsFor a ≠ none → (s.st a).state = .online) ∧
      ∀ l, (s.lock l).state = .free → (s.lock l).waiters = [] := by
  simp only [State.WaitersAgree, State.waitsFor, ne_eq, Option.map_eq_none_iff, ← Option.isSome_iff_ne_none]

/-- The waiter lists stand, and no lock has become FREE. -/
def SameWaiters (s t : State) : Prop :=
  ∀ l, (t.lock l).waiters = (s.lock l).waiters ∧ ((t.lock l).state = .free → (s.lock l).state = .free)

theorem SameWaiters.of_locks {s t : State} (h : t.locks = s.locks) : SameWaiters s t := fun l => by
  simp [State.lock, h]

theorem SameWaiters.trans {s t u : State} (h : SameWaiters s t) (h' : SameWaiters t u) : SameWaiters s u := fun l =>
  ⟨(h' l).1.trans (h l).1, fun free => (h l).2 ((h' l).2 free)⟩

theorem State.WaitersAgree.congr {s t : State} (h : s.WaitersAgree) (locks : SameWaiters s t)
    (waits : ∀ a, t.waitsFor a = s.waitsFor a)
    (states : ∀ a, s.waitsFor a ≠ none → (s.st a).state = .online → (t.st a).state = .online) : t.WaitersAgree := by
  obtain ⟨nodup, mem, online, free⟩ := s.waitersAgree_iff.mp h
  refine t.waitersAgree_iff.mpr ⟨fun l => ?_, fun a l => ?_, fun a ha => ?_, fun l hl => ?_⟩
  · rw [(locks l).1]; exact nodup l
  · rw [(locks l).1, waits]; exact mem a l
  · rw [waits] at ha; exact states a ha (online a ha)
  · rw [(locks l).1]; exact free l ((locks l).2 hl)

/-- A station leaves the list of the lock it waits for, whose state may change. -/
theorem State.WaitersAgree.leave {s t : State} (h : s.WaitersAgree) {w : StationId} {l : LockId}
    (waiting : s.waitsFor w = some l) (left : (t.lock l).waiters = (s.lock l).waiters.erase w)
    (others : ∀ k, k ≠ l → t.lock k = s.lock k) (free : (t.lock l).state = .free → (s.lock l).state = .free)
    (done : t.waitsFor w = none) (waits : ∀ a, a ≠ w → t.waitsFor a = s.waitsFor a)
    (states : ∀ a, a ≠ w → (t.st a).state = (s.st a).state) : t.WaitersAgree := by
  obtain ⟨nodup, mem, online, empty⟩ := s.waitersAgree_iff.mp h
  refine t.waitersAgree_iff.mpr ⟨fun k => ?_, fun a k => ?_, fun a ha => ?_, fun k hk => ?_⟩
  · by_cases e : k = l
    · subst e; rw [left]; exact (nodup k).erase w
    · rw [others k e]; exact nodup k
  · by_cases e : k = l
    · subst e
      rw [left, (nodup k).mem_erase_iff, mem]
      by_cases ea : a = w
      · subst ea; simp [done]
      · simp [ea, waits a ea]
    · rw [others k e, mem]
      by_cases ea : a = w
      · subst ea; simp [done, waiting, Ne.symm e]
      · simp [waits a ea]
  · by_cases ea : a = w
    · subst ea; exact absurd done ha
    · rw [states a ea]; exact online a (waits a ea ▸ ha)
  · by_cases e : k = l
    · subst e; rw [left, empty k (free hk)]; rfl
    · rw [others k e] at hk ⊢; exact empty k hk

/-! ### The operations on locks -/

theorem setLockState_sameWaiters (l : Option LockId) {st : LockState} (busy : st ≠ .free) (s : State) :
    SameWaiters s (setLockState l st s) := by
  intro k
  cases l with
  | none => simp [setLockState]
  | some l =>
    by_cases e : k = l
    · subst e; simp [setLockState, busy]
    · simp [setLockState, e]

/-- What `leaveWait` does to a lock: its state stays, and the station leaves the list of the one it waits for. -/
theorem leaveWait_lock (a : StationId) (o : WaitOutcome) (s : State) (k : LockId) :
    ((leaveWait a o s).lock k).state = (s.lock k).state ∧ ((leaveWait a o s).lock k).waiters =
      if s.waitsFor a = some k then (s.lock k).waiters.erase a else (s.lock k).waiters := by
  unfold leaveWait State.waitsFor
  cases (s.st a).wait with
  | none => simp
  | some w =>
    by_cases e : k = w.lock
    · subst e; simp
    · simp [e, Ne.symm e]

/-- What `leaveWait` does to the waits. -/
theorem leaveWait_waitsFor (a : StationId) (o : WaitOutcome) (s : State) (b : StationId) :
    (leaveWait a o s).waitsFor b = if b = a then none else s.waitsFor b := by
  unfold leaveWait State.waitsFor
  by_cases e : b = a
  · subst e
    cases waiting : (s.st b).wait <;> simp [endWait, waiting]
  · cases (s.st a).wait <;> simp [endWait, e]

theorem leaveWait_keeps_waitersAgree {s : State} (h : s.WaitersAgree) (a : StationId) (o : WaitOutcome) :
    (leaveWait a o s).WaitersAgree := by
  unfold leaveWait
  split
  · rename_i w waiting
    refine h.leave (w := a) (l := w.lock) (by simp [State.waitsFor, waiting]) (by simp) (fun k ne => by simp [ne])
      (by simp) (by simp [State.waitsFor, endWait]) (fun b ne => ?_) (fun b ne => by simp)
    simp [State.waitsFor, endWait, ne]
  · exact h

theorem passLock_keeps_waitersAgree {s : State} (h : s.WaitersAgree) (l : LockId) (r : StationId) :
    (passLock l r s).WaitersAgree := by
  unfold passLock
  split
  · rename_i waiting
    refine h.leave (w := r) (l := l) waiting (by simp) (fun k ne => by simp [ne]) (by simp)
      (by simp [State.waitsFor, endWait]) (fun b ne => ?_) (fun b ne => by simp)
    simp [State.waitsFor, endWait, ne]
  · exact h.congr (setLockState_sameWaiters (some l) (by simp) s) (fun _ => rfl) (fun _ _ online => online)

theorem passCarried_keeps_waitersAgree {s : State} (h : s.WaitersAgree) (carried : Option LockId) (r : StationId) :
    (passCarried carried r s).WaitersAgree := by
  unfold passCarried
  split
  · exact passLock_keeps_waitersAgree h _ r
  · exact h

/-- A handoff with no waiters frees the lock (R101). -/
theorem handoff_of_nil {l : LockId} {s : State} (none : (s.lock l).waiters = []) :
    handoff l s = s.setLock l { state := .free, waiters := [] } := by
  rw [handoff, none, handoffAmong]

/-- A handoff with an ONLINE head gives it the lock (R101, R102). -/
theorem handoff_of_online {l : LockId} {s : State} {w : StationId} {rest : List StationId}
    (waiters : (s.lock l).waiters = w :: rest) (online : (s.st w).state = .online) :
    handoff l s = setSource w srcLock (endWait w .granted (s.setLock l { state := .held w, waiters := rest })) := by
  rw [handoff, waiters, handoffAmong, if_pos online]

/-- Every waiter is ONLINE, so a handoff gives the lock to the head or finds no waiter. -/
theorem handoff_keeps_waitersAgree {s : State} (h : s.WaitersAgree) (l : LockId) : (handoff l s).WaitersAgree := by
  obtain ⟨nodup, mem, online, free⟩ := s.waitersAgree_iff.mp h
  cases waiters : (s.lock l).waiters with
  | nil =>
    rw [handoff_of_nil waiters]
    refine (State.waitersAgree_iff _).mpr ⟨fun k => ?_, fun a k => ?_, online, fun k hk => ?_⟩
    all_goals by_cases e : k = l
    · subst e; simp
    · simpa [e] using nodup k
    · subst e; simpa [waiters, State.waitsFor] using mem a k
    · simpa [e, State.waitsFor] using mem a k
    · subst e; simp
    · simp only [State.lock_setLock_ne _ _ e] at hk ⊢; exact free k hk
  | cons w rest =>
    have waiting : s.waitsFor w = some l := (mem w l).mp (by simp [waiters])
    rw [handoff_of_online waiters (online w (by simp [waiting]))]
    refine h.leave (w := w) (l := l) waiting (by simp [waiters]) (fun k ne => by simp [ne]) (by simp)
      (by simp [State.waitsFor, endWait]) (fun b ne => ?_) (fun b ne => by simp)
    simp [State.waitsFor, endWait, ne]

theorem releaseHoldings_keeps_waitersAgree {s : State} (h : s.WaitersAgree) (a : StationId) :
    (releaseHoldings a s).WaitersAgree := by
  refine foldl_keeps (fun t l ht => ?_) _ s h
  unfold releaseIfHeld
  split
  · exact handoff_keeps_waitersAgree ht l
  · exact ht

theorem joinWaiters_keeps_waitersAgree {s : State} (h : s.WaitersAgree) {a : StationId} {l : LockId}
    (here : (s.st a).state = .online) (taken : (s.lock l).state ≠ .free) (none : (s.st a).wait = none) :
    (joinWaiters a l s).WaitersAgree := by
  obtain ⟨nodup, mem, online, free⟩ := s.waitersAgree_iff.mp h
  have notIn : ∀ k, a ∉ (s.lock k).waiters := fun k => by simp [mem, State.waitsFor, none]
  have own : (joinWaiters a l s).waitsFor a = some l := by simp [State.waitsFor, joinWaiters]
  have others : ∀ b, b ≠ a → (joinWaiters a l s).waitsFor b = s.waitsFor b := fun b ne => by simp [State.waitsFor, ne]
  have list : ∀ k, k ≠ l → (joinWaiters a l s).lock k = s.lock k := fun k ne => by simp [joinWaiters, ne]
  have joined : (joinWaiters a l s).lock l =
      { state := (s.lock l).state, waiters := (s.lock l).waiters ++ [a] } := by simp [joinWaiters]
  refine (State.waitersAgree_iff _).mpr ⟨fun k => ?_, fun b k => ?_, fun b hb => ?_, fun k hk => ?_⟩
  · by_cases e : k = l
    · subst e
      rw [joined]
      exact List.nodup_append.mpr ⟨nodup k, by simp, by simpa using fun x hx (e : x = a) => notIn k (e ▸ hx)⟩
    · rw [list k e]; exact nodup k
  · by_cases e : k = l
    · subst e
      by_cases eb : b = a
      · subst eb; simp [joined, own]
      · simp [joined, others b eb, mem, eb]
    · by_cases eb : b = a
      · subst eb; simp [list k e, own, notIn, Ne.symm e]
      · simp [list k e, others b eb, mem]
  · by_cases eb : b = a
    · subst eb; simpa using here
    · rw [others b eb] at hb; simpa using online b hb
  · by_cases e : k = l
    · subst e; rw [joined] at hk; exact absurd hk taken
    · rw [list k e] at hk ⊢; exact free k hk

/-! ### The operations that use them -/

theorem endRoomWait_sameWaiters (a : StationId) (o : SendOutcome) (sent : Bool) (s : State) :
    SameWaiters s (endRoomWait a o sent s) := by
  unfold endRoomWait
  split
  · rename_i p post
    refine (setLockState_sameWaiters p.passLock (st := .held a) (by simp) (releaseCount p.channel s)).trans
      (SameWaiters.of_locks ?_)
    dsimp only
    split <;> simp
  · exact SameWaiters.of_locks rfl

theorem endRoomWaits_sameWaiters (gone : List RoomEntry) (o : SendOutcome) (sent : Bool) (s : State) :
    SameWaiters s (endRoomWaits gone o sent s) :=
  foldl_keeps (P := SameWaiters s) (fun t e h => h.trans (endRoomWait_sameWaiters e.station o sent t)) gone s
    (SameWaiters.of_locks rfl)

theorem removeWaiting_sameWaiters (p : RoomEntry → Bool) (o : SendOutcome) (sent : Bool) (s : State) :
    SameWaiters s (removeWaiting p o sent s) := by
  have ended := endRoomWaits_sameWaiters (s.roomQueue.filter p) o sent
    { s with roomQueue := s.roomQueue.filter fun e => !p e }
  unfold removeWaiting
  dsimp only
  split
  · exact SameWaiters.trans ended (SameWaiters.of_locks (by simp))
  · exact ended

/-- An operation that leaves locks, waits and states alone keeps the agreement. -/
theorem State.WaitersAgree.frame {s t : State} (h : s.WaitersAgree) (locks : t.locks = s.locks)
    (waits : ∀ a, (t.st a).wait = (s.st a).wait) (states : ∀ a, (t.st a).state = (s.st a).state) : t.WaitersAgree :=
  h.congr (.of_locks locks) (fun a => by simp [State.waitsFor, waits a]) (fun a _ online => (states a).trans online)

/-- An update of one station that leaves its wait and its state alone keeps the agreement. -/
theorem State.WaitersAgree.modSt {s : State} (h : s.WaitersAgree) {a : StationId} {f : StationRec → StationRec}
    (wait : ∀ r, (f r).wait = r.wait := by intro _; rfl) (state : ∀ r, (f r).state = r.state := by intro _; rfl) :
    (s.modSt a f).WaitersAgree := by
  refine h.frame rfl (fun b => ?_) (fun b => ?_)
  all_goals by_cases e : b = a
  · subst e; simpa using wait _
  · simp [e]
  · subst e; simpa using state _
  · simp [e]

theorem State.WaitersAgree.setMsg {s : State} (h : s.WaitersAgree) {d : DescId} {m : Option Message} :
    (s.setMsg d m).WaitersAgree := h.frame rfl (fun _ => rfl) fun _ => rfl

theorem startIfIdle_keeps_waitersAgree {s : State} (h : s.WaitersAgree) : (startIfIdle s).WaitersAgree :=
  h.frame (by simp) (by simp) (by simp)

theorem endMessage_keeps_waitersAgree {s : State} (h : s.WaitersAgree) (o : EndOutcome) (d : DescId) :
    (endMessage o d s).WaitersAgree := by
  unfold endMessage
  split
  · rename_i m _
    have disposed : (disposeLock o m s).WaitersAgree := by
      unfold disposeLock
      split
      · exact passLock_keeps_waitersAgree h _ _
      · exact handoff_keeps_waitersAgree h _
      · exact h
    exact disposed.frame (by simp) (by simp) (by simp)
  · exact h

theorem purge_keeps_waitersAgree {s : State} (h : s.WaitersAgree) (a : StationId) : (purge a s).WaitersAgree := by
  unfold purge discardAll
  exact foldl_keeps (P := State.WaitersAgree) (fun _ d ht => endMessage_keeps_waitersAgree ht .discarded d) _ _ h.modSt

/-- A station that is not ONLINE waits for no lock, so that it may be OFFLINE. -/
theorem State.WaitersAgree.offline {s : State} (agree : s.WaitersAgree) {a : StationId}
    (away : (s.st a).state ≠ .online) :
    (s.modSt a fun r => { r with state := .offline }).WaitersAgree := by
  refine agree.congr (.of_locks rfl) (fun b => ?_) (fun b _ online => ?_)
  all_goals by_cases e : b = a
  · subst e; simp [State.waitsFor]
  · simp [State.waitsFor, e]
  · subst e; exact absurd online away
  · simpa [e] using online

theorem enterOffline_keeps_waitersAgree {s : State} (h : s.WaitersAgree) {a : StationId}
    (away : (s.st a).state ≠ .online) : (enterOffline a s).WaitersAgree := by
  unfold enterOffline
  exact (releaseHoldings_keeps_waitersAgree (purge_keeps_waitersAgree (h.offline away) a) a).modSt

theorem quiesce_keeps_waitersAgree {s : State} (h : s.WaitersAgree) (a : StationId) : (quiesce a s).WaitersAgree := by
  unfold quiesce
  split
  · rename_i quiet
    exact enterOffline_keeps_waitersAgree h (by simp [quiet.1])
  · exact h

/-- The end of a station's room wait does not meet the end of its lock wait. -/
theorem leaveWait_sameWaiters {s u : State} (h : SameWaiters s u) {a : StationId} (waits : u.waitsFor a = s.waitsFor a)
    (o : WaitOutcome) : SameWaiters (leaveWait a o s) (leaveWait a o u) := by
  intro k
  simp only [leaveWait_lock, waits, (h k).1]
  exact ⟨trivial, (h k).2⟩

/-- A station that has become QUIESCING, its post and its lock wait ended: the entry to QUIESCING before its delivery is
looked at. -/
def State.leaving (s : State) (a : StationId) : State :=
  leaveWait a .cancelled (removeWaiting (fun e => e.station == a) .cancelled false
    (s.modSt a fun r => { r with state := .quiescing }))

/-- The state at the quiescence event of a station that leaves: its waits and its delivery have ended, its sources are
cleared. -/
def State.withdrawn (s : State) (a : StationId) : State :=
  (abandonDelivery a (s.leaving a)).modSt a StationRec.silence

/-- Ties `State.leaving` and `State.withdrawn` to the model. -/
theorem enterQuiescing_eq (a : StationId) (s : State) : enterQuiescing a s = quiesce a (s.withdrawn a) := rfl

/-- The lock wait of a station ends when it leaves ONLINE (R112). -/
theorem withdrawn_keeps_waitersAgree {s : State} (h : s.WaitersAgree) (a : StationId) :
    (s.withdrawn a).WaitersAgree := by
  let u := removeWaiting (fun e => e.station == a) .cancelled false (s.modSt a fun r => { r with state := .quiescing })
  have locks : SameWaiters s u := removeWaiting_sameWaiters _ _ _ (s.modSt a _)
  have waits : ∀ b, u.waitsFor b = s.waitsFor b := fun b => by by_cases e : b = a <;> simp [u, State.waitsFor, e]
  have states : ∀ b, b ≠ a → (u.st b).state = (s.st b).state := fun b e => by simp [u, e]
  have left : (leaveWait a .cancelled u).WaitersAgree := by
    refine (leaveWait_keeps_waitersAgree h a .cancelled).congr (leaveWait_sameWaiters locks (waits a) _)
      (fun b => by simp [leaveWait_waitsFor, waits b]) (fun b waiting online => ?_)
    have ne : b ≠ a := fun e => waiting (by simp [leaveWait_waitsFor, e])
    simpa [states b ne] using online
  refine State.WaitersAgree.modSt (left.frame ?_ ?_ ?_)
  all_goals simp [u, State.leaving]

theorem enterQuiescing_keeps_waitersAgree {s : State} (h : s.WaitersAgree) (a : StationId) :
    (enterQuiescing a s).WaitersAgree := by
  rw [enterQuiescing_eq]
  exact quiesce_keeps_waitersAgree (withdrawn_keeps_waitersAgree h a) a

theorem acceptPost_locks (a : StationId) (p : Post) (s : State) :
    (acceptPost a p s).locks = (setLockState p.passLock (.pledged a) s).locks := by
  unfold acceptPost setLockState
  cases p.passLock <;> rfl

theorem attemptEnqueue_sameWaiters (a : StationId) (p : Post) (d : DescId) (m : Message) (s : State) :
    SameWaiters s (attemptEnqueue a p d m s) := by
  unfold attemptEnqueue
  split
  · exact SameWaiters.trans (.of_locks (by simp)) ((setLockState_sameWaiters m.carriedLock (st := .carried d) (by simp)
      (enqueue d m s)).trans (.of_locks (by simp)))
  · refine SameWaiters.trans ?_ (.of_locks (by simp) : SameWaiters (endFailedEnqueue d s) _)
    unfold endFailedEnqueue
    split
    · rename_i n _
      exact (setLockState_sameWaiters n.carriedLock (st := .held n.source) (by simp) s).trans (.of_locks (by simp))
    · exact .of_locks rfl

theorem attemptEnqueue_keeps_waitersAgree {s : State} (h : s.WaitersAgree) (a : StationId) (p : Post) (d : DescId)
    (m : Message) : (attemptEnqueue a p d m s).WaitersAgree :=
  h.congr (attemptEnqueue_sameWaiters a p d m s) (fun b => by simp [State.waitsFor])
    (fun b _ online => by simpa using online)

/-- Every update keeps the waiter lists. The updates not named change no lock, no wait and no station's state. -/
theorem waitersAgree_keptByUpdates : KeptByUpdates State.WaitersAgree := by
  constructor
  case onPlain =>
    intro a f s h same
    refine h.frame rfl (fun b => ?_) (fun b => ?_)
    all_goals by_cases e : b = a
    · subst e; simpa using same.wait
    · simp [e]
    · subst e; simpa using same.state
    · simp [e]
  case onAttach =>
    intro a s h _ offline
    have idle : s.waitsFor a = none := by
      obtain ⟨-, -, online, -⟩ := s.waitersAgree_iff.mp h
      by_contra waiting
      simpa [offline] using online a waiting
    refine h.congr (.of_locks rfl) (fun b => ?_) (fun b _ online => ?_)
    all_goals by_cases e : b = a
    · subst e; rw [idle]; simp [State.waitsFor, StationRec.attached]
    · simp [State.waitsFor, e]
    · subst e; simp [StationRec.attached]
    · simpa [e] using online
  case onQuiescing =>
    intro a s h _ _
    exact enterQuiescing_keeps_waitersAgree h a
  case onPostNow =>
    intro a ch len pass l p s h _ _ _ _ _ _
    exact h.congr ((setLockState_sameWaiters p.passLock (st := .pledged a) (by simp) s).trans
      (.of_locks (by simp [acceptPost_locks])))
      (fun b => by simp [State.waitsFor]) (fun b _ online => by simpa using online)
  case onPostWait =>
    intro a ch len pass l p s h _ _ _ _ _
    exact h.congr ((setLockState_sameWaiters p.passLock (st := .pledged a) (by simp) s).trans
      (.of_locks (by simp [acceptPost_locks])))
      (fun b => by simp [State.waitsFor]) (fun b _ online => by simpa using online)
  case onCancelPost =>
    intro a p s h _
    exact h.congr (removeWaiting_sameWaiters _ _ _ s) (fun b => by simp [State.waitsFor])
      (fun b _ online => by simpa using online)
  case onRoomTimer =>
    intro a s h _
    exact h.congr (removeWaiting_sameWaiters _ _ _ s) (fun b => by simp [State.waitsFor])
      (fun b _ online => by simpa using online)
  case onCloseChannel =>
    intro ch s h _
    exact h.congr (removeWaiting_sameWaiters _ _ _ (s.modChan ch _)) (fun b => by simp [State.waitsFor])
      (fun b _ online => by simpa using online)
  case onTake =>
    intro a c d rest s h _ _ _ _
    unfold takeHead
    split
    · exact passCarried_keeps_waitersAgree h.modSt.setMsg _ _
    · exact h
  case onRelease =>
    intro a slot s h _ _
    exact endMessage_keeps_waitersAgree h.modSt _ _
  case onTakeLock =>
    intro a l s h _ _
    exact h.congr (setLockState_sameWaiters (some l) (by simp) s) (fun _ => rfl) (fun _ _ online => online)
  case onJoinWaiters =>
    intro a l s h here taken _ none
    exact joinWaiters_keeps_waitersAgree h here taken none
  case onHandoff =>
    intro a l s h _
    exact handoff_keeps_waitersAgree h l
  case onCancelWait =>
    intro a s h
    exact leaveWait_keeps_waitersAgree h a _
  case onWaitTimer =>
    intro a s h _
    exact (leaveWait_keeps_waitersAgree h a .timeout).frame (by simp) (by simp) (by simp)
  case onReset =>
    intro v q
    simp [State.waitersAgree_iff, State.waitsFor, State.reset, State.st, State.lock, StationRec.reset]
  case onTick =>
    intro s h
    refine h.congr (.of_locks rfl) (fun b => ?_) (fun b _ online => ?_)
    · simp [State.waitsFor, tickAll, State.st, StationRec.ticked, Function.comp_def]
    · simpa [tickAll, State.st, StationRec.ticked] using online
  case onCopyCompletion =>
    intro a p d m s h _ _
    refine quiesce_keeps_waitersAgree (startIfIdle_keeps_waitersAgree
      (attemptEnqueue_keeps_waitersAgree ?_ a p d m)) a
    exact h.frame rfl (fun _ => rfl) fun _ => rfl
  case onComplete =>
    intro d c s h _ _
    have ended : (endMessage .delivered d.desc (advanceRing d s)).WaitersAgree :=
      endMessage_keeps_waitersAgree (by unfold advanceRing; exact h.modSt) .delivered d.desc
    exact ended.frame (by simp [completeDelivery]) (by simp [completeDelivery]) (by simp [completeDelivery])
  case onEnableRing | onResumeRing | onConsume =>
    intros
    exact startIfIdle_keeps_waitersAgree (State.WaitersAgree.modSt ‹_›)
  case onAnswer | onPending | onCount | onSetTick | onSetEngine | onReassert | onOpenChannel | onRetry =>
    intros
    exact State.WaitersAgree.frame ‹_› rfl (fun _ => rfl) fun _ => rfl
  case onClearFlags | onQueueLimit | onPopConfirm | onClearOverflow | onAcknowledge | onEndService | onDisabling =>
    intros
    exact State.WaitersAgree.modSt ‹_›
  all_goals
    intros
    exact State.WaitersAgree.frame ‹_› (by simp) (by simp) (by simp)

/-- Settles O57: every update keeps the waiter lists. -/
theorem waiterListsStayExact : Obligations.WaiterListsStayExact := waitersAgree_keptByUpdates.keepsStep

end Sys2Proof.Machine
end

section
/-! The head of the room queue stays blocked (spec chapter 1, R13): an examination leaves a blocked head whatever it starts
from, and every update that frees room or removes the head ends in one. -/

namespace Sys2Proof.Machine

-- One proof at a time: many at once take more threads than the check allows.
set_option Elab.async false

/-- The need of the head of these entries does not fit the free counts of the state. -/
def blockedAt (q : List RoomEntry) (s : State) : Prop := ∀ e ∈ q.head?, s.fits e.cellsNeeded = false

theorem State.roomHeadBlocked_iff (s : State) : s.RoomHeadBlocked ↔ blockedAt s.roomQueue s := Iff.rfl

theorem State.fits_congr {s t : State} (descs : t.freeDescs = s.freeDescs) (cells : t.freeCells = s.freeCells) (n : Nat) :
    t.fits n = s.fits n := by
  simp only [State.fits, descs, cells]

/-- A head with the same need, against the same store, is blocked too. -/
theorem State.RoomHeadBlocked.congr {s t : State} (h : s.RoomHeadBlocked)
    (heads : t.roomQueue.head?.map (·.cellsNeeded) = s.roomQueue.head?.map (·.cellsNeeded))
    (descs : t.freeDescs = s.freeDescs) (cells : t.freeCells = s.freeCells) : t.RoomHeadBlocked := by
  intro e he
  have same : s.roomQueue.head?.map (·.cellsNeeded) = some e.cellsNeeded := by
    rw [← heads, Option.mem_def.mp he, Option.map_some]
  obtain ⟨e', he', need⟩ := Option.map_eq_some_iff.mp same
  rw [State.fits_congr descs cells, ← need]
  exact h e' he'

/-- An operation that leaves the room queue and the free lists alone keeps the head blocked. -/
theorem State.RoomHeadBlocked.frame {s t : State} (h : s.RoomHeadBlocked) (queue : t.roomQueue = s.roomQueue)
    (descs : t.freeDescs = s.freeDescs) (cells : t.freeCells = s.freeCells) : t.RoomHeadBlocked :=
  h.congr (by rw [queue]) descs cells

theorem examineAmong_roomHeadBlocked (q : List RoomEntry) (s : State) : (examineAmong q s).RoomHeadBlocked := by
  induction q generalizing s with
  | nil => simp [examineAmong, State.RoomHeadBlocked]
  | cons e rest ih =>
    unfold examineAmong
    split
    · exact ih _
    · rename_i blocked
      simpa [State.RoomHeadBlocked, State.fits] using blocked

/-- Whatever an examination starts from, it leaves a blocked head. -/
theorem examine_roomHeadBlocked (s : State) : (examine s).RoomHeadBlocked := examineAmong_roomHeadBlocked _ s

theorem removeWaiting_keeps_roomHeadBlocked {s : State} (h : s.RoomHeadBlocked) (p : RoomEntry → Bool) (o : SendOutcome)
    (sent : Bool) : (removeWaiting p o sent s).RoomHeadBlocked := by
  unfold removeWaiting
  dsimp only
  split
  · exact examine_roomHeadBlocked _
  · rename_i kept
    refine h.congr ?_ (by simp) (by simp)
    simp only [endRoomWaits_frame]
    cases queue : s.roomQueue with
    | nil => rfl
    | cons e rest =>
      have stays : (!p e) = true := by simpa [queue] using kept
      rw [List.filter_cons, if_pos stays]
      rfl

theorem endMessage_keeps_roomHeadBlocked {s : State} (h : s.RoomHeadBlocked) (o : EndOutcome) (d : DescId) :
    (endMessage o d s).RoomHeadBlocked := by
  unfold endMessage
  split
  · exact examine_roomHeadBlocked _
  · exact h

theorem endFailedEnqueue_keeps_roomHeadBlocked {s : State} (h : s.RoomHeadBlocked) (d : DescId) :
    (endFailedEnqueue d s).RoomHeadBlocked := by
  unfold endFailedEnqueue
  split
  · exact examine_roomHeadBlocked _
  · exact h

theorem purge_keeps_roomHeadBlocked {s : State} (h : s.RoomHeadBlocked) (a : StationId) : (purge a s).RoomHeadBlocked := by
  unfold purge discardAll
  exact foldl_keeps (P := State.RoomHeadBlocked) (fun _ d ht => endMessage_keeps_roomHeadBlocked ht .discarded d) _ _
    (h.frame rfl rfl rfl)

theorem quiesce_keeps_roomHeadBlocked {s : State} (h : s.RoomHeadBlocked) (a : StationId) :
    (quiesce a s).RoomHeadBlocked := by
  unfold quiesce enterOffline
  split
  · have purged := purge_keeps_roomHeadBlocked
      (h.frame (t := s.modSt a fun r => { r with state := .offline }) rfl rfl rfl) a
    exact purged.frame (by simp) (by simp) (by simp)
  · exact h

theorem attemptEnqueue_keeps_roomHeadBlocked {s : State} (h : s.RoomHeadBlocked) (a : StationId) (p : Post) (d : DescId)
    (m : Message) : (attemptEnqueue a p d m s).RoomHeadBlocked := by
  unfold attemptEnqueue
  split
  · exact h.frame (by simp) (by simp) (by simp)
  · exact (endFailedEnqueue_keeps_roomHeadBlocked h d).frame (by simp) (by simp) (by simp)

/-- A post that joins an empty queue has found that its need does not fit; behind others it is not the head. -/
theorem joinRoomQueue_keeps_roomHeadBlocked {s : State} (h : s.RoomHeadBlocked) (a : StationId) (p : Post)
    (noRoom : ¬ (s.roomQueue = [] ∧ s.fits p.cellsNeeded = true)) : (joinRoomQueue a p s).RoomHeadBlocked := by
  have queue : (joinRoomQueue a p s).roomQueue = s.roomQueue ++
      [{ station := a, channel := p.channel, cellsNeeded := p.cellsNeeded
         timer := startTimer (s.st a).roomWaitLimit }] := rfl
  cases waiting : s.roomQueue with
  | nil =>
    rw [waiting, List.nil_append] at queue
    simp only [State.RoomHeadBlocked, queue, List.head?_cons, Option.mem_some_iff, forall_eq']
    rw [State.fits_congr (s := s) (by simp) (by simp)]
    simpa [waiting] using noRoom
  | cons e rest => exact h.congr (by rw [queue, waiting]; rfl) (by simp) (by simp)

/-- Every update leaves the head blocked. The updates not named change neither the queue nor the free lists. -/
theorem roomHeadBlocked_keptByUpdates : KeptByUpdates State.RoomHeadBlocked := by
  constructor
  case onQuiescing =>
    intro a s h _ _
    unfold enterQuiescing
    have removed := removeWaiting_keeps_roomHeadBlocked
      (h.frame (t := s.modSt a fun r => { r with state := .quiescing }) rfl rfl rfl) (fun e => e.station == a) .cancelled
      false
    exact quiesce_keeps_roomHeadBlocked (removed.frame (by simp) (by simp) (by simp)) a
  case onPostNow =>
    intro a ch len pass l p s _ _ _ _ _ empty _
    simp [State.RoomHeadBlocked, empty]
  case onPostWait =>
    intro a ch len pass l p s h _ _ _ _ noRoom
    refine joinRoomQueue_keeps_roomHeadBlocked (h.frame (by simp) (by simp) (by simp)) a p ?_
    rw [State.fits_congr (s := s) (by simp) (by simp)]
    simpa using noRoom
  case onCancelPost =>
    intro a p s h _
    exact removeWaiting_keeps_roomHeadBlocked h _ _ _
  case onRoomTimer =>
    intro a s h _
    exact removeWaiting_keeps_roomHeadBlocked h _ _ _
  case onCloseChannel =>
    intro ch s h _
    exact removeWaiting_keeps_roomHeadBlocked (h.frame (t := s.modChan ch _) rfl rfl rfl) _ _ _
  case onRelease =>
    intro a slot s h _ _
    exact endMessage_keeps_roomHeadBlocked (h.frame (t := s.modSt a _) rfl rfl rfl) _ _
  case onReset =>
    intro v q e he
    exact absurd he (by simp [State.reset])
  case onTick =>
    intro s h
    refine h.congr ?_ rfl rfl
    simp [tickAll, Function.comp_def]
  case onCopyCompletion =>
    intro a p d m s h _ _
    have attempted := attemptEnqueue_keeps_roomHeadBlocked
      (h.frame (t := { s with cellStore := copyPayload m.cells m.length (s.st a).staging s.cellStore }) rfl rfl rfl) a p d m
    exact quiesce_keeps_roomHeadBlocked (attempted.frame (by simp) (by simp) (by simp)) a
  case onComplete =>
    intro d c s h _ _
    have ended := endMessage_keeps_roomHeadBlocked (h.frame (t := advanceRing d s) rfl rfl rfl) .delivered d.desc
    exact ended.frame (by simp [completeDelivery]) (by simp [completeDelivery]) (by simp [completeDelivery])
  all_goals
    intros
    exact State.RoomHeadBlocked.frame ‹_› (by simp) (by simp) (by simp)

/-- Settles O55: every update leaves the head blocked. -/
theorem roomQueueHeadStaysBlocked : Obligations.RoomQueueHeadStaysBlocked := roomHeadBlocked_keptByUpdates.keepsStep

end Sys2Proof.Machine
end

section
/-! The room queue as a list under examination (spec chapter 1, R12 to R18). A law over the entries that wait, kept by the
grant of a head and by the end of one wait, is kept by an examination and by a removal. -/

namespace Sys2Proof.Machine

-- One proof at a time: many at once take more threads than the check allows.
set_option Elab.async false

/-- A law over the waiting entries and the state, which reads the entries from its first argument alone: `onGrant` and
`onEnd` say that it stands when one entry leaves with its grant or its end. -/
structure LawOfWaits (P : List RoomEntry → State → Prop) : Prop where
  perm : ∀ {q q' : List RoomEntry} {s : State}, q.Perm q' → P q s → P q' s
  onQueue : ∀ {q : List RoomEntry} {s : State} (x : List RoomEntry), P q s → P q { s with roomQueue := x }
  onGrant : ∀ {e : RoomEntry} {q : List RoomEntry} {s : State}, P (e :: q) s → s.freeDescs ≠ [] → P q (grant e s)
  onEnd : ∀ {e : RoomEntry} {q : List RoomEntry} {s : State} (o : SendOutcome) (sent : Bool), P (e :: q) s →
    P q (endRoomWait e.station o sent s)

/-- The law of a state: the entries are those of its room queue. -/
def Waiting (P : List RoomEntry → State → Prop) (s : State) : Prop := P s.roomQueue s

theorem freeDescs_ne_nil_of_fits {s : State} {cells : Nat} (h : s.fits cells = true) : s.freeDescs ≠ [] := by
  rintro none
  simpa [none] using ((s.fits_iff cells).mp h).1

section
variable {P : List RoomEntry → State → Prop} (law : LawOfWaits P)
include law

theorem LawOfWaits.examineAmong {q : List RoomEntry} {s : State} (h : P q s) : Waiting P (examineAmong q s) := by
  induction q generalizing s with
  | nil => exact law.onQueue _ h
  | cons e rest ih =>
    unfold Machine.examineAmong
    split
    · rename_i room
      exact ih (law.onGrant (law.onQueue _ h) (freeDescs_ne_nil_of_fits room))
    · exact law.onQueue _ h

theorem LawOfWaits.examine {s : State} (h : Waiting P s) : Waiting P (examine s) := law.examineAmong h

theorem LawOfWaits.endRoomWaits (gone : List RoomEntry) {q : List RoomEntry} {s : State} (h : P (gone ++ q) s)
    (o : SendOutcome) (sent : Bool) : P q (endRoomWaits gone o sent s) := by
  induction gone generalizing s with
  | nil => exact h
  | cons e rest ih => exact ih (law.onEnd o sent h)

theorem LawOfWaits.removeWaiting {s : State} (h : Waiting P s) (p : RoomEntry → Bool) (o : SendOutcome) (sent : Bool) :
    Waiting P (removeWaiting p o sent s) := by
  have split := law.perm (List.filter_append_perm p s.roomQueue).symm h
  have ended := law.endRoomWaits _ (law.onQueue (s.roomQueue.filter fun e => !p e) split) o sent
  have kept : Waiting P (Machine.endRoomWaits (s.roomQueue.filter p) o sent
      { s with roomQueue := s.roomQueue.filter fun e => !p e }) := by
    have queue : ∀ t, (Machine.endRoomWaits (s.roomQueue.filter p) o sent t).roomQueue = t.roomQueue := by simp
    unfold Waiting
    rw [queue]
    exact ended
  unfold Machine.removeWaiting
  dsimp only
  split
  · exact law.examine kept
  · exact kept
end

/-! ### Which stations wait -/

/-- The room queue's law R12 over the entries `q`: each station once, each with its post's channel and cells, and every
station in AWAIT_ROOM among them. -/
structure WaitsAgree (q : List RoomEntry) (s : State) : Prop where
  stations : (q.map (·.station)).Nodup
  posts : ∀ e ∈ q, ∃ p, (s.st e.station).send = .awaitRoom p ∧ p.channel = e.channel ∧ p.cellsNeeded = e.cellsNeeded
  entries : ∀ a p, (s.st a).send = .awaitRoom p → ∃ e ∈ q, e.station = a

/-- A station in AWAIT_ROOM is ONLINE (R18). -/
def State.AwaitersOnline (s : State) : Prop := ∀ a p, (s.st a).send = .awaitRoom p → (s.st a).state = .online

theorem State.roomQueueAgrees_iff (s : State) :
    s.RoomQueueAgrees ↔ WaitsAgree s.roomQueue s ∧ s.AwaitersOnline := by
  constructor
  · rintro ⟨stations, posts, entries⟩
    exact ⟨⟨stations, posts, fun a p h => (entries a p h).2⟩, fun a p h => (entries a p h).1⟩
  · rintro ⟨⟨stations, posts, entries⟩, online⟩
    exact ⟨stations, posts, fun a p h => ⟨online a p h, entries a p h⟩⟩

/-- The same stations are in AWAIT_ROOM, with the same posts. -/
def SameAwaiters (s t : State) : Prop := ∀ b p, (t.st b).send = .awaitRoom p ↔ (s.st b).send = .awaitRoom p

theorem SameAwaiters.of_send {s t : State} (h : ∀ b, (t.st b).send = (s.st b).send) : SameAwaiters s t :=
  fun b p => by rw [h b]

theorem WaitsAgree.congr {q : List RoomEntry} {s t : State} (h : WaitsAgree q s) (same : SameAwaiters s t) :
    WaitsAgree q t := by
  refine ⟨h.stations, fun e he => ?_, fun a p hp => h.entries a p ((same a p).mp hp)⟩
  obtain ⟨p, waits, need⟩ := h.posts e he
  exact ⟨p, (same _ p).mpr waits, need⟩

/-- The first entry leaves, its station's send state being something else from then on. -/
theorem WaitsAgree.leave {e : RoomEntry} {q : List RoomEntry} {s t : State} (h : WaitsAgree (e :: q) s)
    (own : ∀ p, (t.st e.station).send ≠ .awaitRoom p) (others : ∀ b, b ≠ e.station → (t.st b).send = (s.st b).send) :
    WaitsAgree q t := by
  obtain ⟨stations, posts, entries⟩ := h
  rw [List.map_cons, List.nodup_cons] at stations
  refine ⟨stations.2, fun f hf => ?_, fun a p hp => ?_⟩
  · have ne : f.station ≠ e.station := fun same => stations.1 (same ▸ List.mem_map_of_mem hf)
    rw [others _ ne]
    exact posts f (List.mem_cons_of_mem e hf)
  · have ne : a ≠ e.station := by rintro rfl; exact own p hp
    rw [others a ne] at hp
    obtain ⟨f, hf, rfl⟩ := entries a p hp
    exact ⟨f, (List.mem_cons.mp hf).resolve_left (fun same => ne (by rw [same])), rfl⟩

/-- The head of the waiting entries is one of a station in AWAIT_ROOM. -/
theorem WaitsAgree.head {e : RoomEntry} {q : List RoomEntry} {s : State} (h : WaitsAgree (e :: q) s) :
    ∃ p, (s.st e.station).send = .awaitRoom p ∧ p.channel = e.channel ∧ p.cellsNeeded = e.cellsNeeded :=
  h.posts e List.mem_cons_self

/-! ### What a grant and the end of a wait do -/

/-- Allocation takes the first free descriptor (R10). -/
theorem allocate_eq {d : DescId} {rest : List DescId} {s : State} (free : s.freeDescs = d :: rest) (a : StationId)
    (p : Post) : allocate a p s =
      { s with
        freeDescs := rest
        freeCells := s.freeCells.drop p.cellsNeeded
        messages := put s.messages d (some
          { source := a, channel := p.channel, dest := p.dest, cls := p.cls, length := p.length, tag := p.tag
            sequence := p.sequence, carriedLock := p.passLock, confirm := p.confirm
            cells := s.freeCells.take p.cellsNeeded, state := .filling })
        stations := put s.stations a { s.st a with send := .copying p d } } := by
  rw [allocate, free]

theorem grant_of_awaitRoom {e : RoomEntry} {p : Post} {s : State} (waits : (s.st e.station).send = .awaitRoom p) :
    grant e s = allocate e.station p s := by
  rw [grant, waits]

theorem allocate_send {s : State} (room : s.freeDescs ≠ []) (a : StationId) (p : Post) :
    ∃ d, ((allocate a p s).st a).send = .copying p d := by
  obtain ⟨d, rest, free⟩ := List.exists_cons_of_ne_nil room
  exact ⟨d, by simp [allocate_eq free, State.st]⟩

theorem endRoomWait_send {a : StationId} {p : Post} {s : State} (waits : (s.st a).send = .awaitRoom p) (o : SendOutcome)
    (sent : Bool) : ((endRoomWait a o sent s).st a).send = .idle := by
  simp only [endRoomWait, waits]
  cases sent <;> simp [endPost]

theorem lawOfWaits_waitsAgree : LawOfWaits WaitsAgree where
  perm same h :=
    ⟨(same.map _).nodup_iff.mp h.stations, fun e he => h.posts e (same.mem_iff.mpr he), fun a p hp => by
      obtain ⟨e, he, station⟩ := h.entries a p hp
      exact ⟨e, same.mem_iff.mp he, station⟩⟩
  onQueue _ h := h.congr (.of_send fun _ => rfl)
  onGrant {e _ _} h room := by
    obtain ⟨p, waits, -⟩ := h.head
    obtain ⟨d, granted⟩ := allocate_send room e.station p
    rw [grant_of_awaitRoom waits]
    exact h.leave (fun p' => by simp [granted]) (fun b ne => by simp [ne])
  onEnd o sent h := by
    obtain ⟨p, waits, -⟩ := h.head
    exact h.leave (fun p' => by simp [endRoomWait_send waits]) (fun b ne => by simp [ne])

/-! ### What the end of a message does -/

/-- Message `m` of descriptor `d` is gone from the store and from its channel's count; the room queue is not examined
yet (R11, R30, R85). -/
def State.freed (s : State) (d : DescId) (m : Message) : State :=
  { releaseCount m.channel s with
    freeDescs := s.freeDescs ++ [d]
    freeCells := s.freeCells ++ m.cells
    messages := put s.messages d none }

@[simp] theorem State.freed_frame (s : State) (d : DescId) (m : Message) :
    (s.freed d m).stations = s.stations ∧ (s.freed d m).locks = s.locks ∧ (s.freed d m).engine = s.engine ∧
      (s.freed d m).roomQueue = s.roomQueue ∧ (s.freed d m).freeDescs = s.freeDescs ++ [d] ∧
      (s.freed d m).freeCells = s.freeCells ++ m.cells := ⟨rfl, rfl, rfl, rfl, rfl, rfl⟩

@[simp] theorem State.freed_reads (s : State) (d : DescId) (m : Message) :
    (∀ b, (s.freed d m).st b = s.st b) ∧ ∀ l, (s.freed d m).lock l = s.lock l := ⟨fun _ => rfl, fun _ => rfl⟩

@[simp] theorem State.freed_msg_same (s : State) (d : DescId) (m : Message) : (s.freed d m).msg d = none := by
  simp [State.freed, State.msg]

@[simp] theorem State.freed_msg_ne (s : State) {d e : DescId} (m : Message) (ne : e ≠ d) :
    (s.freed d m).msg e = s.msg e := by
  simp [State.freed, State.msg, ne]

theorem State.freed_chan (s : State) (d : DescId) (m : Message) (c : ChannelId) :
    (s.freed d m).chan c = (releaseCount m.channel s).chan c := rfl

theorem endMessage_of_none {o : EndOutcome} {d : DescId} {s : State} (none : s.msg d = none) : endMessage o d s = s := by
  rw [endMessage, none]

theorem endMessage_of_msg {o : EndOutcome} {d : DescId} {m : Message} {s : State} (hm : s.msg d = some m) :
    endMessage o d s = examine ((confirmEnd o m (disposeLock o m s)).freed d m) := by
  rw [endMessage, hm]
  rfl

theorem endFailedEnqueue_of_msg {d : DescId} {m : Message} {s : State} (hm : s.msg d = some m) :
    endFailedEnqueue d s = examine ((setLockState m.carriedLock (.held m.source) s).freed d m) := by
  rw [endFailedEnqueue, hm]
  rfl

/-! ### No operation but the joining of the queue brings a station to AWAIT_ROOM -/

/-- Every station in AWAIT_ROOM was there before, with the same post. -/
def NoNewAwaiter (s t : State) : Prop := ∀ b p, (t.st b).send = .awaitRoom p → (s.st b).send = .awaitRoom p

theorem SameAwaiters.noNew {s t : State} (h : SameAwaiters s t) : NoNewAwaiter s t := fun b p => (h b p).mp

theorem NoNewAwaiter.of_send {s t : State} (h : ∀ b, (t.st b).send = (s.st b).send) : NoNewAwaiter s t :=
  fun b p hp => by rwa [h b] at hp

theorem NoNewAwaiter.trans {s t u : State} (h : NoNewAwaiter s t) (h' : NoNewAwaiter t u) : NoNewAwaiter s u :=
  fun b p hp => h b p (h' b p hp)

/-- Only station `a` changes its send state, and not to AWAIT_ROOM. -/
theorem NoNewAwaiter.of_one {s t : State} (a : StationId) (own : ∀ p, (t.st a).send ≠ .awaitRoom p)
    (others : ∀ b, b ≠ a → (t.st b).send = (s.st b).send) : NoNewAwaiter s t := fun b p hp => by
  by_cases e : b = a
  · subst e; exact absurd hp (own p)
  · rwa [others b e] at hp

theorem grant_noNewAwaiter (e : RoomEntry) (s : State) : NoNewAwaiter s (grant e s) := by
  unfold grant
  split
  · rename_i p waits
    unfold allocate
    split
    · exact .of_send fun _ => rfl
    · exact .of_one e.station (by simp [State.st]) (fun b ne => by simp [State.st, ne])
  · exact .of_send fun _ => rfl

theorem examineAmong_noNewAwaiter (q : List RoomEntry) (s : State) : NoNewAwaiter s (examineAmong q s) := by
  induction q generalizing s with
  | nil => exact .of_send fun _ => rfl
  | cons e rest ih =>
    unfold examineAmong
    split
    · exact (NoNewAwaiter.of_send (s := s) (t := { s with roomQueue := rest }) fun _ => rfl).trans
        ((grant_noNewAwaiter e _).trans (ih _))
    · exact .of_send fun _ => rfl

theorem endRoomWait_noNewAwaiter (a : StationId) (o : SendOutcome) (sent : Bool) (s : State) :
    NoNewAwaiter s (endRoomWait a o sent s) := by
  by_cases waits : ∃ p, (s.st a).send = .awaitRoom p
  · obtain ⟨p, waits⟩ := waits
    exact .of_one a (by simp [endRoomWait_send waits]) (fun b ne => by simp [ne])
  · unfold endRoomWait
    split
    · exact absurd ⟨_, ‹_›⟩ waits
    · exact .of_send fun _ => rfl

theorem removeWaiting_noNewAwaiter (p : RoomEntry → Bool) (o : SendOutcome) (sent : Bool) (s : State) :
    NoNewAwaiter s (removeWaiting p o sent s) := by
  have ended : NoNewAwaiter s (endRoomWaits (s.roomQueue.filter p) o sent
      { s with roomQueue := s.roomQueue.filter fun e => !p e }) :=
    foldl_keeps (P := NoNewAwaiter s) (fun t e h => h.trans (endRoomWait_noNewAwaiter e.station o sent t)) _ _
      (.of_send fun _ => rfl)
  unfold removeWaiting
  dsimp only
  split
  · exact ended.trans (examineAmong_noNewAwaiter _ _)
  · exact ended

theorem endMessage_noNewAwaiter (o : EndOutcome) (d : DescId) (s : State) : NoNewAwaiter s (endMessage o d s) := by
  cases hm : s.msg d with
  | none => rw [endMessage_of_none hm]; exact .of_send fun _ => rfl
  | some m =>
    rw [endMessage_of_msg hm]
    exact NoNewAwaiter.trans (.of_send fun b => by simp) (examineAmong_noNewAwaiter _ _)

/-- No awaiter is new, and those there are still ONLINE. -/
theorem State.AwaitersOnline.congr {s t : State} (h : s.AwaitersOnline) (old : NoNewAwaiter s t)
    (states : ∀ a p, (t.st a).send = .awaitRoom p → (s.st a).state = .online → (t.st a).state = .online) :
    t.AwaitersOnline := fun a p hp => states a p hp (h a p (old a p hp))

end Sys2Proof.Machine
end

section
/-! The outstanding counts as a step invariant (spec chapter 2, R29 to R31): a channel's count is its messages in existence
plus its posts waiting. A grant turns a waiting post into a message, the end of a wait or of a message takes one off both
sides. -/

namespace Sys2Proof.Machine

-- One proof at a time: many at once take more threads than the check allows.
set_option Elab.async false

/-! ### Messages on a channel -/

/-- What `g` reads of the record of descriptor `d`. -/
def State.readMsg {β : Type} (g : Message → β) (s : State) (d : DescId) : Option β := (s.msg d).map g

theorem State.readMsg_of_messages {β : Type} {g : Message → β} {s t : State} (h : t.messages = s.messages) (d : DescId) :
    t.readMsg g d = s.readMsg g d := by
  simp only [State.readMsg, State.msg, h]

/-- The channel of the message of descriptor `d`. -/
def State.channelOf (s : State) (d : DescId) : Option ChannelId := (s.msg d).map (·.channel)

theorem State.channelOf_of_messages {s t : State} (h : t.messages = s.messages) (d : DescId) :
    t.channelOf d = s.channelOf d := State.readMsg_of_messages h d

theorem State.messagesOn_eq (s : State) (c : ChannelId) :
    s.messagesOn c = (List.finRange 256).countP fun d => s.channelOf d == some c := by
  unfold State.messagesOn State.channelOf
  congr 1
  funext d
  cases s.msg d <;> simp

theorem State.messagesOn_congr {s t : State} (h : ∀ d, t.channelOf d = s.channelOf d) (c : ChannelId) :
    t.messagesOn c = s.messagesOn c := by
  simp only [State.messagesOn_eq, h]

/-- Counting with two tests that differ at one element of a list without duplicates. -/
theorem countP_update {α : Type} [DecidableEq α] {f g : α → Bool} {x : α} {l : List α} (nodup : l.Nodup) (mem : x ∈ l)
    (same : ∀ y, y ≠ x → f y = g y) :
    l.countP f + (if g x then 1 else 0) = l.countP g + (if f x then 1 else 0) := by
  have split := List.perm_cons_erase mem
  have rest : (l.erase x).countP f = (l.erase x).countP g :=
    List.countP_congr fun y hy => by rw [same y ((nodup.mem_erase_iff.mp hy).1)]
  rw [split.countP_eq f, split.countP_eq g, List.countP_cons, List.countP_cons, rest]
  omega

/-- One record changes: the count of messages on a channel loses the old one and gains the new one. -/
theorem State.messagesOn_update {s t : State} {d : DescId} (others : ∀ e, e ≠ d → t.msg e = s.msg e) (c : ChannelId) :
    t.messagesOn c + (if s.channelOf d = some c then 1 else 0) =
      s.messagesOn c + (if t.channelOf d = some c then 1 else 0) := by
  have updated := countP_update (f := fun e => t.channelOf e == some c) (g := fun e => s.channelOf e == some c) (x := d)
    (List.nodup_finRange 256) (List.mem_finRange d) (fun e ne => by simp only [State.channelOf, others e ne])
  simpa only [State.messagesOn_eq, beq_iff_eq] using updated

/-! ### The law -/

/-- Every outstanding count is exact for the waiting entries `q`, and within its limit (R31). -/
def CountsExact (q : List RoomEntry) (s : State) : Prop :=
  ∀ c, (s.chan c).count = s.messagesOn c + q.countP (fun e => e.channel == c) ∧
    (s.chan c).count ≤ (s.chan c).limit.val

/-- The law of the free descriptor list (R2). -/
def State.DescsFree (s : State) : Prop := s.freeDescs.Nodup ∧ ∀ d, d ∈ s.freeDescs ↔ s.msg d = none

/-- The counts, the room queue and the free descriptors, for the waiting entries `q`. -/
structure Outstanding (q : List RoomEntry) (s : State) : Prop where
  counts : CountsExact q s
  waits : WaitsAgree q s
  free : s.DescsFree

theorem State.countsAgree_iff (s : State) : s.CountsAgree ↔ Waiting Outstanding s ∧ s.AwaitersOnline := by
  unfold State.CountsAgree Waiting
  rw [s.roomQueueAgrees_iff]
  exact ⟨fun ⟨counts, ⟨waits, online⟩, free⟩ => ⟨⟨counts, waits, free⟩, online⟩,
    fun ⟨⟨counts, waits, free⟩, online⟩ => ⟨counts, ⟨waits, online⟩, free⟩⟩

/-- What the laws of the store and of the counts read of a state but for its stations. -/
structure SameCounts (s t : State) : Prop where
  count : ∀ c, (t.chan c).count = (s.chan c).count
  limit : ∀ c, (t.chan c).limit = (s.chan c).limit
  channelOf : ∀ d, t.channelOf d = s.channelOf d
  freeDescs : t.freeDescs = s.freeDescs

theorem CountsExact.congr {q : List RoomEntry} {s t : State} (h : CountsExact q s) (same : SameCounts s t) :
    CountsExact q t := fun c => by
  rw [same.count, same.limit, State.messagesOn_congr same.channelOf]
  exact h c

theorem CountsExact.perm {q q' : List RoomEntry} {s : State} (h : CountsExact q s) (same : q.Perm q') :
    CountsExact q' s := fun c => by
  rw [← same.countP_eq]
  exact h c

theorem State.channelOf_eq_none (s : State) (d : DescId) : s.channelOf d = none ↔ s.msg d = none := Option.map_eq_none_iff

theorem State.DescsFree.congr {s t : State} (h : s.DescsFree) (descs : t.freeDescs = s.freeDescs)
    (same : ∀ d, t.channelOf d = s.channelOf d) : t.DescsFree := by
  refine ⟨descs ▸ h.1, fun d => ?_⟩
  rw [descs, ← State.channelOf_eq_none, same, State.channelOf_eq_none]
  exact h.2 d

theorem Outstanding.congr {q : List RoomEntry} {s t : State} (h : Outstanding q s) (same : SameCounts s t)
    (awaiters : SameAwaiters s t) : Outstanding q t :=
  ⟨h.counts.congr same, h.waits.congr awaiters, h.free.congr same.freeDescs same.channelOf⟩

theorem SameCounts.of_fields {s t : State} (channels : t.channels = s.channels) (messages : t.messages = s.messages)
    (descs : t.freeDescs = s.freeDescs) : SameCounts s t where
  count c := by simp only [State.chan, channels]
  limit c := by simp only [State.chan, channels]
  channelOf := State.channelOf_of_messages messages
  freeDescs := descs

/-! ### Allocation and freeing -/

theorem State.DescsFree.allocate {s : State} (h : s.DescsFree) (a : StationId) (p : Post) :
    (allocate a p s).DescsFree := by
  cases free : s.freeDescs with
  | nil => rwa [Machine.allocate, free]
  | cons d rest =>
    obtain ⟨nodup, mem⟩ := h
    rw [free] at nodup mem
    rw [allocate_eq free]
    refine ⟨(List.nodup_cons.mp nodup).2, fun e => ?_⟩
    by_cases same : e = d
    · subst same
      simpa [State.msg] using (List.nodup_cons.mp nodup).1
    · have old := mem e
      simp only [List.mem_cons, same, false_or] at old
      simpa [State.msg, same] using old

/-- Allocation turns one entry of the channel into one message of it. -/
theorem CountsExact.allocate {e : RoomEntry} {q : List RoomEntry} {s : State} (h : CountsExact (e :: q) s)
    (free : s.DescsFree) (room : s.freeDescs ≠ []) (a : StationId) {p : Post} (channel : p.channel = e.channel) :
    CountsExact q (allocate a p s) := by
  obtain ⟨d, rest, descs⟩ := List.exists_cons_of_ne_nil room
  have unused : s.channelOf d = none := (s.channelOf_eq_none d).mpr ((free.2 d).mp (by simp [descs]))
  intro c
  obtain ⟨count, limit⟩ := h c
  have updated := State.messagesOn_update (s := s) (t := Machine.allocate a p s) (d := d)
    (fun x ne => by simp [allocate_eq descs, State.msg, ne]) c
  have new : (Machine.allocate a p s).channelOf d = some e.channel := by
    simp [allocate_eq descs, State.channelOf, State.msg, channel]
  rw [unused, new] at updated
  rw [List.countP_cons] at count
  simp only [allocate_reads]
  simp only [reduceCtorEq, if_false, Option.some.injEq, beq_iff_eq] at updated count
  omega

/-- The end of a wait takes one entry off and the count falls by one. -/
theorem CountsExact.releaseCount {e : RoomEntry} {q : List RoomEntry} {s : State} (h : CountsExact (e :: q) s) :
    CountsExact q (releaseCount e.channel s) := by
  intro c
  obtain ⟨count, limit⟩ := h c
  rw [List.countP_cons] at count
  have messages : (Machine.releaseCount e.channel s).messagesOn c = s.messagesOn c :=
    State.messagesOn_congr (fun _ => rfl) c
  rw [messages]
  by_cases same : c = e.channel
  · subst same
    simp only [beq_self_eq_true, if_true] at count
    simp only [Machine.releaseCount, State.chan_modChan_same]
    omega
  · simp only [beq_iff_eq, Ne.symm same, if_false] at count
    simp only [Machine.releaseCount, State.chan_modChan_ne _ _ same]
    omega

/-- The end of a message takes one message off and the count falls by one. -/
theorem CountsExact.freed {q : List RoomEntry} {s : State} (h : CountsExact q s) {d : DescId} {m : Message}
    (channel : s.channelOf d = some m.channel) : CountsExact q (s.freed d m) := by
  intro c
  obtain ⟨count, limit⟩ := h c
  have updated := State.messagesOn_update (s := s) (t := s.freed d m) (d := d) (fun x ne => by simp [ne]) c
  have gone : (s.freed d m).channelOf d = none := by simp [State.channelOf]
  rw [channel, gone] at updated
  simp only [reduceCtorEq, if_false, Option.some.injEq] at updated
  rw [State.freed_chan]
  by_cases same : c = m.channel
  · subst same
    simp only [if_true] at updated
    simp only [Machine.releaseCount, State.chan_modChan_same]
    omega
  · simp only [Ne.symm same, if_false] at updated
    simp only [Machine.releaseCount, State.chan_modChan_ne _ _ same]
    omega

theorem State.DescsFree.freed {s : State} (h : s.DescsFree) {d : DescId} {m : Message} (used : s.msg d ≠ none) :
    (s.freed d m).DescsFree := by
  obtain ⟨nodup, mem⟩ := h
  have out : d ∉ s.freeDescs := fun hd => used ((mem d).mp hd)
  refine ⟨?_, fun e => ?_⟩
  · simp only [State.freed_frame]
    exact List.nodup_append.mpr ⟨nodup, by simp, by simpa using fun x hx (e : x = d) => out (e ▸ hx)⟩
  · by_cases same : e = d
    · subst same; simp
    · simp [same, mem]

theorem endRoomWait_sameCounts {a : StationId} {p : Post} {s : State} (waits : (s.st a).send = .awaitRoom p)
    (o : SendOutcome) (sent : Bool) : SameCounts (releaseCount p.channel s) (endRoomWait a o sent s) := by
  rw [endRoomWait_eq waits]
  exact SameCounts.of_fields rfl rfl rfl

/-- The counts, the room queue and the free descriptors stand when an entry leaves by its grant or its end. -/
theorem lawOfWaits_outstanding : LawOfWaits Outstanding where
  perm same h := ⟨h.counts.perm same, lawOfWaits_waitsAgree.perm same h.waits, h.free⟩
  onQueue x h := ⟨h.counts.congr (.of_fields rfl rfl rfl), lawOfWaits_waitsAgree.onQueue x h.waits, h.free⟩
  onGrant {e _ _} h room := by
    obtain ⟨p, waits, channel, -⟩ := h.waits.head
    have agree := lawOfWaits_waitsAgree.onGrant h.waits room
    rw [grant_of_awaitRoom waits] at agree ⊢
    exact ⟨h.counts.allocate h.free room e.station channel, agree, h.free.allocate e.station p⟩
  onEnd {e _ _} o sent h := by
    obtain ⟨p, waits, channel, -⟩ := h.waits.head
    have same := endRoomWait_sameCounts waits o sent
    rw [channel] at same
    exact ⟨h.counts.releaseCount.congr same, lawOfWaits_waitsAgree.onEnd o sent h.waits,
      State.DescsFree.congr (s := releaseCount e.channel _) h.free same.freeDescs same.channelOf⟩

/-! ### The operations -/

/-- An operation that leaves counts, room queue and send states alone keeps the agreement. -/
theorem State.CountsAgree.frame {s t : State} (h : s.CountsAgree) (same : SameCounts s t)
    (queue : t.roomQueue = s.roomQueue) (awaiters : SameAwaiters s t)
    (states : ∀ a p, (s.st a).send = .awaitRoom p → (s.st a).state = .online → (t.st a).state = .online) :
    t.CountsAgree := by
  obtain ⟨outstanding, online⟩ := s.countsAgree_iff.mp h
  refine t.countsAgree_iff.mpr ⟨?_, online.congr awaiters.noNew fun a p hp => states a p ((awaiters a p).mp hp)⟩
  unfold Waiting
  rw [queue]
  exact outstanding.congr same awaiters

theorem State.CountsAgree.examine {s : State} (h : s.CountsAgree) : (examine s).CountsAgree := by
  obtain ⟨outstanding, online⟩ := s.countsAgree_iff.mp h
  exact (State.countsAgree_iff _).mpr ⟨lawOfWaits_outstanding.examine outstanding,
    online.congr (examineAmong_noNewAwaiter _ s) fun a _ _ ho => by simpa using ho⟩

theorem State.CountsAgree.removeWaiting {s : State} (h : s.CountsAgree) (p : RoomEntry → Bool) (o : SendOutcome)
    (sent : Bool) : (removeWaiting p o sent s).CountsAgree := by
  obtain ⟨outstanding, online⟩ := s.countsAgree_iff.mp h
  exact (State.countsAgree_iff _).mpr ⟨lawOfWaits_outstanding.removeWaiting outstanding p o sent,
    online.congr (removeWaiting_noNewAwaiter p o sent s) fun a _ _ ho => by simpa using ho⟩

theorem State.CountsAgree.freed {s : State} (h : s.CountsAgree) {d : DescId} {m : Message} (hm : s.msg d = some m) :
    (s.freed d m).CountsAgree := by
  obtain ⟨⟨counts, waits, free⟩, online⟩ := s.countsAgree_iff.mp h
  refine (State.countsAgree_iff _).mpr ⟨⟨counts.freed (by simp [State.channelOf, hm]), ?_, free.freed (by simp [hm])⟩,
    online.congr (.of_send fun _ => rfl) fun _ _ _ ho => ho⟩
  exact waits.congr (.of_send fun _ => rfl)

theorem State.CountsAgree.endMessage {s : State} (h : s.CountsAgree) (o : EndOutcome) (d : DescId) :
    (endMessage o d s).CountsAgree := by
  cases hm : s.msg d with
  | none => rwa [endMessage_of_none hm]
  | some m =>
    rw [endMessage_of_msg hm]
    have settled : (confirmEnd o m (disposeLock o m s)).CountsAgree :=
      h.frame (.of_fields (by simp) (by simp) (by simp)) (by simp) (.of_send (by simp)) (by simp)
    exact (settled.freed (by simpa using hm)).examine

theorem State.CountsAgree.endFailedEnqueue {s : State} (h : s.CountsAgree) (d : DescId) :
    (endFailedEnqueue d s).CountsAgree := by
  cases hm : s.msg d with
  | none => rwa [Machine.endFailedEnqueue, hm]
  | some m =>
    rw [endFailedEnqueue_of_msg hm]
    have returned : (setLockState m.carriedLock (.held m.source) s).CountsAgree :=
      h.frame (.of_fields (by simp) (by simp) (by simp)) (by simp) (.of_send (by simp)) (by simp)
    exact (returned.freed (by simpa using hm)).examine

/-- An update of one station that leaves its send state alone and does not take it out of ONLINE. -/
theorem State.CountsAgree.modSt {s : State} (h : s.CountsAgree) {a : StationId} {f : StationRec → StationRec}
    (send : ∀ r, (f r).send = r.send := by intro _; rfl)
    (state : ∀ r, r.state = .online → (f r).state = .online := by intro _ online; exact online) :
    (s.modSt a f).CountsAgree := by
  refine h.frame (.of_fields rfl rfl rfl) rfl (.of_send fun b => ?_) (fun b _ _ online => ?_)
  all_goals by_cases e : b = a
  · subst e; simpa using send _
  · simp [e]
  · subst e; simpa using state _ online
  · simpa [e] using online

theorem State.CountsAgree.purge {s : State} (h : s.CountsAgree) (a : StationId) : (purge a s).CountsAgree := by
  unfold Machine.purge discardAll
  exact foldl_keeps (P := State.CountsAgree) (fun _ d ht => ht.endMessage .discarded d) _ _ h.modSt

theorem State.CountsAgree.enterOffline {s : State} (h : s.CountsAgree) {a : StationId}
    (away : (s.st a).state ≠ .online) : (enterOffline a s).CountsAgree := by
  have offline : (s.modSt a fun r => { r with state := .offline }).CountsAgree := by
    refine h.frame (.of_fields rfl rfl rfl) rfl (.of_send fun b => ?_) (fun b _ _ online => ?_)
    all_goals by_cases e : b = a
    · subst e; simp
    · simp [e]
    · subst e; exact absurd online away
    · simpa [e] using online
  have purged := offline.purge a
  have released : (releaseHoldings a (Machine.purge a (s.modSt a fun r => { r with state := .offline }))).CountsAgree :=
    purged.frame (.of_fields (by simp) (by simp) (by simp)) (by simp) (.of_send (by simp)) (by simp)
  unfold Machine.enterOffline
  exact released.modSt

theorem State.CountsAgree.quiesce {s : State} (h : s.CountsAgree) (a : StationId) : (quiesce a s).CountsAgree := by
  unfold Machine.quiesce
  split
  · rename_i quiet
    exact h.enterOffline (by simp [quiet.1])
  · exact h

section
variable {β : Type} {g : Message → β} (stateless : ∀ (m : Message) st, g { m with state := st } = g m)
include stateless

/-- A delivery that starts, waits or ends changes nothing of a message but its state. -/
theorem setMessageState_readMsg (d : DescId) (st : MessageState) (s : State) (e : DescId) :
    (setMessageState d st s).readMsg g e = s.readMsg g e := by
  unfold setMessageState
  split
  · rename_i m hm
    by_cases same : e = d
    · subst same; simp [State.readMsg, hm, stateless]
    · simp [State.readMsg, same]
  · rfl

theorem adoptDelivery_readMsg (d : Delivery) (s : State) (e : DescId) :
    (adoptDelivery d s).readMsg g e = s.readMsg g e := setMessageState_readMsg stateless d.desc .delivering s e

theorem startIfIdle_readMsg (s : State) (e : DescId) : (startIfIdle s).readMsg g e = s.readMsg g e := by
  unfold startIfIdle
  split
  · exact adoptDelivery_readMsg stateless _ s e
  · rfl

theorem advanceBurst_readMsg (s : State) (e : DescId) : (advanceBurst s).readMsg g e = s.readMsg g e := by
  unfold advanceBurst
  split
  · unfold continueBurst
    split
    · exact adoptDelivery_readMsg stateless _ { s with burst := s.burst + 1 } e
    · exact startIfIdle_readMsg stateless _ e
  · exact startIfIdle_readMsg stateless _ e

theorem abandonDelivery_readMsg (a : StationId) (s : State) (e : DescId) :
    (abandonDelivery a s).readMsg g e = s.readMsg g e := by
  unfold abandonDelivery
  split
  · split
    · unfold releaseToIdle
      rw [startIfIdle_readMsg stateless]
      exact setMessageState_readMsg stateless _ _ s e
    · rfl
  · rfl

theorem faultDelivery_readMsg (d : Delivery) (code : FaultCode) (addr : Word) (s : State) (e : DescId) :
    (faultDelivery d code addr s).readMsg g e = s.readMsg g e := by
  unfold faultDelivery releaseToIdle
  rw [startIfIdle_readMsg stateless, ← setMessageState_readMsg stateless d.desc .queued s e]
  refine State.readMsg_of_messages ?_ e
  dsimp only
  split <;> simp
end

theorem startIfIdle_channelOf (s : State) (e : DescId) : (startIfIdle s).channelOf e = s.channelOf e :=
  startIfIdle_readMsg (fun _ _ => rfl) s e

theorem advanceBurst_channelOf (s : State) (e : DescId) : (advanceBurst s).channelOf e = s.channelOf e :=
  advanceBurst_readMsg (fun _ _ => rfl) s e

theorem abandonDelivery_channelOf (a : StationId) (s : State) (e : DescId) :
    (abandonDelivery a s).channelOf e = s.channelOf e := abandonDelivery_readMsg (fun _ _ => rfl) a s e

theorem faultDelivery_channelOf (d : Delivery) (code : FaultCode) (addr : Word) (s : State) (e : DescId) :
    (faultDelivery d code addr s).channelOf e = s.channelOf e := faultDelivery_readMsg (fun _ _ => rfl) d code addr s e

theorem State.CountsAgree.startIfIdle {s : State} (h : s.CountsAgree) : (startIfIdle s).CountsAgree :=
  h.frame ⟨by simp, by simp, startIfIdle_channelOf s, by simp⟩ (by simp) (.of_send (by simp)) (by simp)

/-- A station that leaves ONLINE waits for room no more (R18), so its waits and the states agree again. -/
theorem enterQuiescing_keeps_countsAgree {s : State} (h : s.CountsAgree) (a : StationId) :
    (enterQuiescing a s).CountsAgree := by
  obtain ⟨outstanding, online⟩ := s.countsAgree_iff.mp h
  let t := s.modSt a fun r => { r with state := .quiescing }
  let u := removeWaiting (fun e => e.station == a) .cancelled false t
  have started : Waiting Outstanding t := outstanding.congr (.of_fields rfl rfl rfl)
    (.of_send fun b => by by_cases e : b = a <;> simp [t, e])
  have removed : Waiting Outstanding u := lawOfWaits_outstanding.removeWaiting started _ _ _
  have gone : ∀ p, (u.st a).send ≠ .awaitRoom p := fun p waits => by
    obtain ⟨e, he, station⟩ := removed.waits.entries a p waits
    simpa [station] using (mem_removeWaiting he).2
  have agree : u.CountsAgree := (State.countsAgree_iff _).mpr ⟨removed, fun b p waits => by
    have ne : b ≠ a := by rintro rfl; exact gone p waits
    have before : (s.st b).send = .awaitRoom p := by
      simpa [t, ne] using removeWaiting_noNewAwaiter _ _ _ t b p waits
    simpa [u, t, ne] using online b p before⟩
  have left : (abandonDelivery a (leaveWait a .cancelled u)).CountsAgree := by
    refine agree.frame ⟨by simp, by simp, fun d => ?_, by simp⟩ (by simp) (.of_send (by simp)) (by simp)
    rw [abandonDelivery_channelOf, State.channelOf_of_messages (s := u) (by simp)]
  unfold enterQuiescing
  exact State.CountsAgree.quiesce (State.CountsAgree.modSt left) a

/-! ### POST and COPY_COMPLETION -/

theorem acceptPost_count (a : StationId) (p : Post) (s : State) (c : ChannelId) :
    ((acceptPost a p s).chan c).count = (s.chan c).count + (if c = p.channel then 1 else 0) ∧
      ((acceptPost a p s).chan c).limit = (s.chan c).limit := by
  have chan : (acceptPost a p s).chan c = (s.modChan p.channel fun e => { e with count := e.count + 1 }).chan c := by
    unfold acceptPost
    simp [State.modChan, State.chan]
  rw [chan]
  by_cases e : c = p.channel
  · subst e; simp
  · simp [e]

/-- An accepted post is counted like one more entry of its channel (R29). -/
theorem CountsExact.acceptPost {q : List RoomEntry} {s : State} (h : CountsExact q s) (a : StationId) {p : Post}
    {e : RoomEntry} (channel : e.channel = p.channel) (room : (s.chan p.channel).count < (s.chan p.channel).limit.val) :
    CountsExact (e :: q) (acceptPost a p s) := by
  intro c
  obtain ⟨count, limit⟩ := h c
  obtain ⟨more, same⟩ := acceptPost_count a p s c
  have messages : (Machine.acceptPost a p s).messagesOn c = s.messagesOn c :=
    State.messagesOn_congr (State.channelOf_of_messages (by simp)) c
  rw [more, same, messages, List.countP_cons, channel]
  by_cases e : c = p.channel
  · subst e; simp; omega
  · simp [e, Ne.symm e]; omega

theorem room_of_checkPost {a : StationId} {ch : ChannelId} {len : Fin 128} {pass : Bool} {l : LockId} {s : State}
    (h : checkPost a ch len pass l s = none) :
    (s.st a).send = .idle ∧ (s.chan ch).count < (s.chan ch).limit.val := by
  unfold checkPost at h
  repeat' split at h
  all_goals simp_all

end Sys2Proof.Machine
end

section
/-! The outstanding counts as a step invariant, concluded: POST, COPY_COMPLETION, the end of a delivery, the tick and RESET,
then every update. -/

namespace Sys2Proof.Machine

-- One proof at a time: many at once take more threads than the check allows.
set_option Elab.async false

theorem range_map_ofNat (n : Nat) [NeZero n] : (List.range n).map (Fin.ofNat n) = List.finRange n := by
  refine List.ext_getElem (by simp) fun i hi _ => Fin.ext ?_
  have below : i < n := by simpa using hi
  simp [Nat.mod_eq_of_lt below]

theorem reset_freeDescs : State.reset.freeDescs = List.finRange 256 := by
  simp only [State.reset, range_map_ofNat]

theorem reset_freeCells : State.reset.freeCells = List.finRange 1024 := by
  simp only [State.reset, range_map_ofNat]

/-- A state with no message and no post, all counts 0 and all descriptors free. -/
theorem countsAgree_of_empty {s : State} (counts : ∀ c, (s.chan c).count = 0) (messages : ∀ d, s.msg d = none)
    (queue : s.roomQueue = []) (sends : ∀ a, (s.st a).send = .idle) (free : s.freeDescs = List.finRange 256) :
    s.CountsAgree := by
  refine s.countsAgree_iff.mpr ⟨⟨fun c => ?_, ⟨?_, ?_, ?_⟩, ?_, ?_⟩, ?_⟩
  · simp [counts, queue, State.messagesOn, messages]
  · simp [queue]
  · simp [queue]
  · simp [sends]
  · rw [free]; exact List.nodup_finRange 256
  · simp [free, messages]
  · simp [State.AwaitersOnline, sends]

/-- A POST given room at once: its entry stands in the queue for no time (R44, R45). -/
theorem postNow_keeps_countsAgree {s : State} (h : s.CountsAgree) {a : StationId} {p : Post}
    (room : (s.chan p.channel).count < (s.chan p.channel).limit.val) (empty : s.roomQueue = [])
    (fits : s.fits p.cellsNeeded = true) : (allocate a p (acceptPost a p s)).CountsAgree := by
  obtain ⟨⟨counts, waits, free⟩, online⟩ := s.countsAgree_iff.mp h
  rw [empty] at counts waits
  have nobody : ∀ b q, ((allocate a p (acceptPost a p s)).st b).send ≠ .awaitRoom q := fun b q hq => by
    have freeDescs : (acceptPost a p s).freeDescs ≠ [] := by simpa using freeDescs_ne_nil_of_fits fits
    by_cases e : b = a
    · subst e
      obtain ⟨d, copying⟩ := allocate_send freeDescs b p
      simp [copying] at hq
    · obtain ⟨x, hx, -⟩ := waits.entries b q (by simpa [e] using hq)
      exact absurd hx (by simp)
  have entry : CountsExact [{ station := a, channel := p.channel, cellsNeeded := p.cellsNeeded, timer := none }]
      (acceptPost a p s) := counts.acceptPost a rfl room
  have accepted : (acceptPost a p s).DescsFree := free.congr (by simp) (State.channelOf_of_messages (by simp))
  have queue : (allocate a p (acceptPost a p s)).roomQueue = [] := by simp [empty]
  refine (State.countsAgree_iff _).mpr ⟨?_, fun b q hq => absurd hq (nobody b q)⟩
  unfold Waiting
  rw [queue]
  refine ⟨entry.allocate accepted ?_ a rfl, ⟨by simp, by simp, fun b q hq => absurd hq (nobody b q)⟩, accepted.allocate a p⟩
  simpa using freeDescs_ne_nil_of_fits fits

/-- A POST that waits: its entry joins the queue (R12, R45). -/
theorem postWait_keeps_countsAgree {s : State} (h : s.CountsAgree) {a : StationId} {p : Post}
    (online : (s.st a).state = .online) (idle : (s.st a).send = .idle)
    (room : (s.chan p.channel).count < (s.chan p.channel).limit.val) :
    (joinRoomQueue a p (acceptPost a p s)).CountsAgree := by
  obtain ⟨⟨counts, waits, free⟩, awaiters⟩ := s.countsAgree_iff.mp h
  let e : RoomEntry := { station := a, channel := p.channel, cellsNeeded := p.cellsNeeded
                         timer := startTimer (s.st a).roomWaitLimit }
  let t := joinRoomQueue a p (acceptPost a p s)
  have queue : t.roomQueue = s.roomQueue ++ [e] := by simp [t, e, joinRoomQueue]
  have own : (t.st a).send = .awaitRoom p := by simp [t, joinRoomQueue]
  have others : ∀ b, b ≠ a → (t.st b).send = (s.st b).send := fun b ne => by simp [t, ne]
  have out : ∀ x ∈ s.roomQueue, x.station ≠ a := fun x hx same => by
    obtain ⟨q, await, -⟩ := waits.posts x hx
    simp [same, idle] at await
  have counted : CountsExact (s.roomQueue ++ [e]) t := by
    have more : CountsExact (e :: s.roomQueue) t := (counts.acceptPost a (e := e) rfl room).congr
      (.of_fields (by simp [t]) (by simp [t]) (by simp [t]))
    exact more.perm (List.perm_append_singleton e s.roomQueue).symm
  refine (State.countsAgree_iff _).mpr ⟨?_, fun b q hq => ?_⟩
  · show Outstanding t.roomQueue t
    rw [queue]
    refine ⟨counted, ⟨?_, fun x hx => ?_, fun b q hq => ?_⟩, free.congr (by simp [t]) (State.channelOf_of_messages (by simp [t]))⟩
    · rw [List.map_append, List.map_singleton, List.nodup_append]
      refine ⟨waits.stations, by simp, ?_⟩
      simpa [e] using out
    · rcases List.mem_append.mp hx with hx | hx
      · rw [others _ (out x hx)]; exact waits.posts x hx
      · obtain rfl := List.mem_singleton.mp hx
        exact ⟨p, own, rfl, rfl⟩
    · by_cases same : b = a
      · subst same; exact ⟨e, by simp, rfl⟩
      · rw [others b same] at hq
        obtain ⟨x, hx, station⟩ := waits.entries b q hq
        exact ⟨x, List.mem_append_left _ hx, station⟩
  · by_cases same : b = a
    · subst same; simpa using online
    · rw [others b same] at hq; simpa using awaiters b q hq

/-- One record changes and keeps what `g` reads of it. -/
theorem readMsg_of_put {β : Type} {g : Message → β} {s t : State} {d : DescId} {m m' : Message} (hm : s.msg d = some m)
    (messages : t.messages = put s.messages d (some m')) (same : g m' = g m) (e : DescId) :
    t.readMsg g e = s.readMsg g e := by
  unfold State.readMsg State.msg
  rw [messages]
  by_cases eq : e = d
  · have held : entry s.messages d = some m := hm
    simp [eq, held, same]
  · simp [eq]

theorem enqueue_messages (d : DescId) (m : Message) (s : State) :
    (enqueue d m s).messages = put s.messages d (some { m with state := .queued }) := by
  unfold enqueue
  dsimp only
  split <;> simp [State.setMsg]

theorem takeHead_messages {d : DescId} {m : Message} {s : State} (hm : s.msg d = some m) (a : StationId) (c : ClassId) :
    (takeHead a c d s).messages = put s.messages d (some { m with state := .reading, carriedLock := none }) := by
  rw [takeHead, hm]
  simp [State.setMsg]

theorem endFailedEnqueue_noNewAwaiter (d : DescId) (s : State) : NoNewAwaiter s (endFailedEnqueue d s) := by
  cases hm : s.msg d with
  | none => rw [endFailedEnqueue, hm]; exact .of_send fun _ => rfl
  | some m =>
    rw [endFailedEnqueue_of_msg hm]
    exact NoNewAwaiter.trans (.of_send fun b => by simp) (examineAmong_noNewAwaiter _ _)

/-- A station that waits for room neither before nor after changes its send state, and no other does. -/
theorem SameAwaiters.of_one {s t : State} (a : StationId) (before : ∀ p, (s.st a).send ≠ .awaitRoom p)
    (after : ∀ p, (t.st a).send ≠ .awaitRoom p) (others : ∀ b, b ≠ a → (t.st b).send = (s.st b).send) :
    SameAwaiters s t := fun b p => by
  by_cases e : b = a
  · subst e; exact ⟨fun h => absurd h (after p), fun h => absurd h (before p)⟩
  · rw [others b e]

/-- The end of a copy takes a message into a queue or out of the store; the station that copied waits for no room. -/
theorem attemptEnqueue_keeps_countsAgree {s : State} (h : s.CountsAgree) {a : StationId} {p : Post} {d : DescId}
    {m : Message} (copying : (s.st a).send = .copying p d) (hm : s.msg d = some m) :
    (attemptEnqueue a p d m s).CountsAgree := by
  unfold attemptEnqueue
  split
  · refine h.frame ⟨by simp, by simp, ?_, by simp⟩ (by simp)
      (.of_one a (by simp [copying]) (by simp [endPost]) fun b ne => by simp [ne]) (by simp)
    exact readMsg_of_put hm (m' := { m with state := .queued }) (by simp [enqueue_messages]) rfl
  · have notWaiting : ∀ q, ((endFailedEnqueue d s).st a).send ≠ .awaitRoom q := fun q hq => by
      simpa [copying] using endFailedEnqueue_noNewAwaiter d s a q hq
    exact (h.endFailedEnqueue d).frame (.of_fields (by simp) (by simp) (by simp)) (by simp)
      (.of_one a notWaiting (by simp [endPost]) fun b ne => by simp [ne]) (by simp)

/-- The timers of the room queue's entries are read by no law of the counts. -/
theorem tickAll_keeps_countsAgree {s : State} (h : s.CountsAgree) : (tickAll s).CountsAgree := by
  obtain ⟨⟨counts, waits, free⟩, online⟩ := s.countsAgree_iff.mp h
  have stations : ∀ b, ((tickAll s).st b).send = (s.st b).send ∧ ((tickAll s).st b).state = (s.st b).state := fun b => by
    simp [tickAll, State.st, StationRec.ticked]
  have ticked : WaitsAgree (tickAll s).roomQueue s := by
    refine ⟨by simpa [tickAll, Function.comp_def] using waits.stations, fun e he => ?_, fun b p hp => ?_⟩
    · obtain ⟨x, hx, rfl⟩ := List.mem_map.mp he
      exact waits.posts x hx
    · obtain ⟨x, hx, station⟩ := waits.entries b p hp
      exact ⟨_, List.mem_map_of_mem hx, station⟩
  refine (State.countsAgree_iff _).mpr ⟨⟨fun c => ?_, ticked.congr (.of_send fun b => (stations b).1), free⟩,
    online.congr (.of_send fun b => (stations b).1) fun b _ _ ho => (stations b).2.trans ho⟩
  have same : (tickAll s).roomQueue.countP (fun e => e.channel == c) = s.roomQueue.countP fun e => e.channel == c := by
    simp [tickAll, List.countP_map, Function.comp_def]
  rw [same]
  exact counts c

/-- A CLOSED entry with count 0 is opened with any limit (R24). -/
theorem openChannel_keeps_countsAgree {s : State} (h : s.CountsAgree) {ch : ChannelId} {f : Channel → Channel}
    (zero : (s.chan ch).count = 0) (count : ∀ e, (f e).count = e.count) : (s.modChan ch f).CountsAgree := by
  obtain ⟨⟨counts, waits, free⟩, online⟩ := s.countsAgree_iff.mp h
  refine (State.countsAgree_iff _).mpr ⟨⟨fun c => ?_, waits.congr (.of_send fun _ => rfl), free⟩, online⟩
  obtain ⟨exact_, within⟩ := counts c
  by_cases same : c = ch
  · subst same
    simp only [State.chan_modChan_same, count]
    exact ⟨exact_, by simp [zero]⟩
  · simp only [State.chan_modChan_ne _ _ same]
    exact ⟨exact_, within⟩

/-- Every update keeps the counts exact. The updates not named change no count, message, post or free descriptor. -/
theorem countsAgree_keptByUpdates : KeptByUpdates State.CountsAgree := by
  constructor
  case onPlain =>
    intro a f s h same
    refine h.frame (.of_fields rfl rfl rfl) rfl (.of_send fun b => ?_) (fun b _ _ online => ?_)
    all_goals by_cases e : b = a
    · subst e; simpa using same.send
    · simp [e]
    · subst e; simpa [same.state] using online
    · simpa [e] using online
  case onAttach =>
    intro a s h _ offline
    exact h.modSt (state := fun _ _ => rfl)
  case onQuiescing =>
    intro a s h _ _
    exact enterQuiescing_keeps_countsAgree h a
  case onPostNow =>
    intro a ch len pass l p s h _ _ hp checked empty fits
    subst hp
    exact postNow_keeps_countsAgree h (room_of_checkPost checked).2 empty fits
  case onPostWait =>
    intro a ch len pass l p s h _ online hp checked _
    subst hp
    exact postWait_keeps_countsAgree h online (room_of_checkPost checked).1 (room_of_checkPost checked).2
  case onCancelPost | onRoomTimer =>
    intros
    exact State.CountsAgree.removeWaiting ‹_› _ _ _
  case onCloseChannel =>
    intro ch s h _
    refine State.CountsAgree.removeWaiting (s := s.modChan ch _) (h.frame ⟨fun c => ?_, fun c => ?_, fun _ => rfl, rfl⟩ rfl
      (.of_send fun _ => rfl) fun _ _ _ online => online) _ _ _
    all_goals by_cases e : c = ch
    · subst e; simp
    · simp [e]
    · subst e; simp
    · simp [e]
  case onTake =>
    intro a c d rest s h _ _ _ _
    cases hm : s.msg d with
    | none => rwa [takeHead, hm]
    | some m =>
      have channels := readMsg_of_put (g := fun m => m.channel) hm (takeHead_messages hm a c) rfl
      exact h.frame ⟨by simp, by simp, channels, by simp⟩ (by simp) (.of_send (by simp)) (by simp)
  case onRelease =>
    intro a slot s h _ _
    exact State.CountsAgree.endMessage h.modSt _ _
  case onOpenChannel =>
    intro ch dest c hold confirm pass mask limit s h _ _ zero
    exact openChannel_keeps_countsAgree h zero fun _ => rfl
  case onReset =>
    intro v q
    exact countsAgree_of_empty (fun c => by simp [State.chan, State.reset, Channel.reset])
      (fun d => by simp [State.msg, State.reset]) rfl (fun a => by simp [State.st, State.reset, StationRec.reset])
      reset_freeDescs
  case onTick =>
    intro s h
    exact tickAll_keeps_countsAgree h
  case onFaultDelivery =>
    intro d c code addr s h _
    exact h.frame ⟨by simp, by simp, faultDelivery_channelOf d code addr s, by simp⟩ (by simp) (.of_send (by simp))
      (by simp)
  case onCopyCompletion =>
    intro a p d m s h copying hm
    refine State.CountsAgree.quiesce (State.CountsAgree.startIfIdle (attemptEnqueue_keeps_countsAgree (s := { s with
      cellStore := copyPayload m.cells m.length (s.st a).staging s.cellStore }) ?_ copying hm)) a
    exact h.frame (.of_fields rfl rfl rfl) rfl (.of_send fun _ => rfl) fun _ _ _ online => online
  case onComplete =>
    intro d c s h _ _
    have advanced : (advanceRing d s).CountsAgree := by unfold advanceRing; exact h.modSt
    refine (advanced.endMessage .delivered d.desc).frame ⟨by simp [completeDelivery], by simp [completeDelivery],
      fun e => ?_, by simp [completeDelivery]⟩ (by simp [completeDelivery]) (.of_send (by simp [completeDelivery]))
      (by simp [completeDelivery])
    unfold completeDelivery
    rw [advanceBurst_channelOf]
    exact State.channelOf_of_messages (by simp) e
  case onEnableRing | onResumeRing | onConsume =>
    intros
    exact State.CountsAgree.startIfIdle (State.CountsAgree.modSt ‹_›)
  case onAnswer | onPending | onCount | onSetTick | onSetEngine | onReassert | onRetry =>
    intros
    exact State.CountsAgree.frame ‹_› (.of_fields rfl rfl rfl) rfl (.of_send fun _ => rfl) fun _ _ _ online => online
  case onClearFlags | onQueueLimit | onPopConfirm | onClearOverflow | onAcknowledge | onEndService | onDisabling =>
    intros
    exact State.CountsAgree.modSt ‹_›
  all_goals
    intros
    exact State.CountsAgree.frame ‹_› (.of_fields (by simp) (by simp) (by simp)) (by simp) (.of_send (by simp)) (by simp)

/-- Settles O56: every update keeps the counts exact. -/
theorem outstandingCountsStayExact : Obligations.OutstandingCountsStayExact := countsAgree_keptByUpdates.keepsStep

end Sys2Proof.Machine
end

section
/-! The choice of an acknowledge (spec chapter 8, R147), and the in-service lists as a step invariant (R146). -/

namespace Sys2Proof.Machine

-- One proof at a time: many at once take more threads than the check allows.
set_option Elab.async false

/-! ### The chosen source -/

/-- What the search for the most urgent source has found after the sources `xs`: none of them is eligible, or the eligible
one of highest level and then of lowest number. -/
def StationRec.MostUrgent (r : StationRec) (xs : List SourceId) : Option SourceId → Prop
  | none => ∀ k ∈ xs, r.eligible k = false
  | some n => r.eligible n = true ∧
      ∀ k ∈ xs, r.eligible k = true → r.level k < r.level n ∨ r.level k = r.level n ∧ n ≤ k

theorem StationRec.MostUrgent.next {r : StationRec} {xs : List SourceId} {best : Option SourceId}
    (h : r.MostUrgent xs best) {n : SourceId} (bound : ∀ b ∈ best, b < n) (later : ∀ k ∈ xs, k < n) :
    r.MostUrgent (xs ++ [n]) (r.moreUrgent best n) := by
  unfold StationRec.moreUrgent
  by_cases he : r.eligible n = true
  · rw [if_pos he]
    cases best with
    | none =>
      refine ⟨he, fun k hk hek => ?_⟩
      rcases List.mem_append.mp hk with hk | hk
      · exact absurd hek (by simp [h k hk])
      · obtain rfl := List.mem_singleton.mp hk
        exact .inr ⟨rfl, le_rfl⟩
    | some b =>
      obtain ⟨hb, most⟩ := h
      dsimp only
      split
      · rename_i more
        refine ⟨he, fun k hk hek => ?_⟩
        rcases List.mem_append.mp hk with hk | hk
        · have := most k hk hek
          omega
        · obtain rfl := List.mem_singleton.mp hk
          exact .inr ⟨rfl, le_rfl⟩
      · rename_i notMore
        refine ⟨hb, fun k hk hek => ?_⟩
        rcases List.mem_append.mp hk with hk | hk
        · exact most k hk hek
        · obtain rfl := List.mem_singleton.mp hk
          have before := bound b rfl
          rcases Nat.lt_or_ge (r.level k) (r.level b) with lt | ge
          · exact .inl lt
          · exact .inr ⟨by omega, le_of_lt before⟩
  · rw [if_neg he]
    have out : r.eligible n = false := by simpa using he
    cases best with
    | none =>
      intro k hk
      rcases List.mem_append.mp hk with hk | hk
      · exact h k hk
      · obtain rfl := List.mem_singleton.mp hk
        exact out
    | some b =>
      refine ⟨h.1, fun k hk hek => ?_⟩
      rcases List.mem_append.mp hk with hk | hk
      · exact h.2 k hk hek
      · obtain rfl := List.mem_singleton.mp hk
        simp [out] at hek

theorem StationRec.moreUrgent_mem {r : StationRec} {best : Option SourceId} {n b : SourceId}
    (h : r.moreUrgent best n = some b) : b = n ∨ best = some b := by
  unfold StationRec.moreUrgent at h
  split at h
  · split at h
    · split at h
      · exact .inl (Option.some.inj h).symm
      · exact .inr h
    · exact .inl (Option.some.inj h).symm
  · exact .inr h

/-- The search keeps its finding along sources in ascending order. -/
theorem StationRec.MostUrgent.search {r : StationRec} (ys : List SourceId) {xs : List SourceId} {best : Option SourceId}
    (h : r.MostUrgent xs best) (among : ∀ b ∈ best, b ∈ xs) (rising : (xs ++ ys).Pairwise (· < ·)) :
    r.MostUrgent (xs ++ ys) (ys.foldl r.moreUrgent best) := by
  induction ys generalizing xs best with
  | nil => simpa using h
  | cons n rest ih =>
    have later : ∀ k ∈ xs, k < n := fun k hk =>
      (List.pairwise_append.mp rising).2.2 k hk n List.mem_cons_self
    have found : ∀ b ∈ r.moreUrgent best n, b ∈ xs ++ [n] := fun b hb => by
      rcases StationRec.moreUrgent_mem hb with rfl | old
      · simp
      · exact List.mem_append_left _ (among b old)
    have regroup : xs ++ n :: rest = (xs ++ [n]) ++ rest := by simp
    rw [regroup] at rising ⊢
    exact ih (h.next (fun b hb => later b (among b hb)) later) found rising

theorem allSources_rising : allSources.Pairwise (· < ·) := by decide

theorem mem_allSources (n : SourceId) : n ∈ allSources := by
  revert n
  decide

/-- The chosen source is the most urgent of all (R147). -/
theorem StationRec.chosenSource_mostUrgent (r : StationRec) : r.MostUrgent allSources r.chosenSource :=
  StationRec.MostUrgent.search allSources (xs := []) (best := none) (by simp [StationRec.MostUrgent]) (by simp)
    allSources_rising

theorem StationRec.chosenSource_eq_none (r : StationRec) (h : ∀ n, r.eligible n = false) : r.chosenSource = none := by
  cases chosen : r.chosenSource with
  | none => rfl
  | some n =>
    have most := r.chosenSource_mostUrgent
    rw [chosen] at most
    simpa [h n] using most.1

/-- An eligible source that no other exceeds is the one chosen. -/
theorem StationRec.chosenSource_eq_some {r : StationRec} {n : SourceId} (hn : r.eligible n = true)
    (most : ∀ k, r.eligible k = true → r.level k < r.level n ∨ r.level k = r.level n ∧ n ≤ k) :
    r.chosenSource = some n := by
  have search := r.chosenSource_mostUrgent
  cases chosen : r.chosenSource with
  | none =>
    rw [chosen] at search
    exact absurd hn (by simp [search n (mem_allSources n)])
  | some b =>
    rw [chosen] at search
    obtain ⟨hb, most_b⟩ := search
    have one := most_b n (mem_allSources n) hn
    have other := most b hb
    have level : r.level b = r.level n := by
      rcases one with more | ⟨same, -⟩
      · rcases other with less | ⟨same, -⟩
        · omega
        · exact same
      · exact same.symm
    rw [le_antisymm (one.resolve_left (by omega)).2 (other.resolve_left (by omega)).2]

theorem StationRec.eligible_of_chosenSource {r : StationRec} {n : SourceId} (h : r.chosenSource = some n) :
    r.eligible n = true := by
  have search := r.chosenSource_mostUrgent
  rw [h] at search
  exact search.1

/-! ### In-service lists -/

theorem serviceOrdered_nil : serviceOrdered [] := by simp [serviceOrdered]

/-- Levels of 1 to 7 that strictly rise are at most seven. -/
theorem length_le_seven_of_rising {l : List ServiceEntry} (rising : l.Pairwise fun x y => x.level < y.level)
    (range : ∀ e ∈ l, 1 ≤ e.level ∧ e.level ≤ 7) : l.length ≤ 7 := by
  have distinct : (l.map (·.level)).Nodup := (List.pairwise_map.mpr rising).imp fun h => Nat.ne_of_lt h
  have within : (l.map (·.level)) ⊆ [1, 2, 3, 4, 5, 6, 7] := fun n hn => by
    obtain ⟨e, he, rfl⟩ := List.mem_map.mp hn
    have := range e he
    simp only [List.mem_cons, List.not_mem_nil]
    omega
  simpa using (distinct.subperm within).length_le

/-- The newest entry of an ordered list has the highest level. -/
theorem serviceOrdered.level_lt {l : List ServiceEntry} (h : serviceOrdered l) {n : Nat}
    (top : ∀ e ∈ l.getLast?, e.level < n) : ∀ e ∈ l, e.level < n := by
  obtain ⟨rising, -, -, -⟩ := h
  intro e he
  rcases List.eq_nil_or_concat' l with rfl | ⟨front, last, rfl⟩
  · simp at he
  · have highest : last.level < n := top last (by simp)
    rcases List.mem_append.mp he with he | he
    · have below := (List.pairwise_append.mp rising).2.2 e he last (by simp)
      omega
    · obtain rfl := List.mem_singleton.mp he
      exact highest

/-- An eligible source may join the list (R144, R147). -/
theorem serviceOrdered.acknowledge {r : StationRec} (h : serviceOrdered r.inService) {n : SourceId}
    (eligible : r.eligible n = true) : serviceOrdered (r.acknowledge n).inService := by
  obtain ⟨-, -, -, positive, top, fresh⟩ := (ready_iff r n).mpr eligible
  rw [sourceLevel_eq] at positive top
  have below := h.level_lt top
  obtain ⟨rising, distinct, range, -⟩ := h
  have small : r.level n ≤ 7 := by unfold StationRec.level; omega
  have rising' : (r.acknowledge n).inService.Pairwise fun x y => x.level < y.level := by
    refine List.pairwise_append.mpr ⟨rising, List.pairwise_singleton _ _, fun x hx y hy => ?_⟩
    obtain rfl := List.mem_singleton.mp hy
    exact below x hx
  have range' : ∀ e ∈ (r.acknowledge n).inService, 1 ≤ e.level ∧ e.level ≤ 7 := fun e he => by
    rcases List.mem_append.mp he with he | he
    · exact range e he
    · obtain rfl := List.mem_singleton.mp he
      exact ⟨positive, small⟩
  refine ⟨rising', ?_, range', length_le_seven_of_rising rising' range'⟩
  simp only [StationRec.acknowledge, List.map_append, List.map_singleton]
  refine List.nodup_append.mpr ⟨distinct, by simp, fun x hx y hy => ?_⟩
  obtain ⟨e, he, rfl⟩ := List.mem_map.mp hx
  obtain rfl := List.mem_singleton.mp hy
  exact fresh e he

theorem serviceOrdered.dropLast {l : List ServiceEntry} (h : serviceOrdered l) : serviceOrdered l.dropLast := by
  obtain ⟨rising, distinct, range, length⟩ := h
  have sub := l.dropLast_sublist
  exact ⟨rising.sublist sub, distinct.sublist (sub.map _), fun e he => range e (sub.subset he),
    sub.length_le.trans length⟩

theorem State.ServiceOrdered.frame {s t : State} (h : s.ServiceOrdered)
    (same : ∀ b, (t.st b).inService = (s.st b).inService) : t.ServiceOrdered := fun b => same b ▸ h b

/-- One station's list is replaced by an ordered one. -/
theorem State.ServiceOrdered.modSt {s : State} (h : s.ServiceOrdered) {a : StationId} {f : StationRec → StationRec}
    (own : serviceOrdered (s.st a).inService → serviceOrdered (f (s.st a)).inService) :
    (s.modSt a f).ServiceOrdered := fun b => by
  by_cases e : b = a
  · subst e; simpa using own (h b)
  · simpa [e] using h b

theorem State.ServiceOrdered.startIfIdle {s : State} (h : s.ServiceOrdered) : (startIfIdle s).ServiceOrdered :=
  h.frame (by simp)

theorem State.ServiceOrdered.endMessage {s : State} (h : s.ServiceOrdered) (o : EndOutcome) (d : DescId) :
    (endMessage o d s).ServiceOrdered := h.frame (by simp)

theorem enterQuiescing_keeps_serviceOrdered {s : State} (h : s.ServiceOrdered) (a : StationId) :
    (enterQuiescing a s).ServiceOrdered := fun b => by
  unfold enterQuiescing
  by_cases e : b = a
  · subst e; simpa [StationRec.silence] using serviceOrdered_nil
  · simpa [e] using h b

/-- Every update keeps the in-service lists ordered: ACK appends an eligible source, END_SERVICE drops the newest entry,
QUIESCING, ATTACH and RESET empty a list, and no other touches one. -/
theorem serviceOrdered_keptByUpdates : KeptByUpdates State.ServiceOrdered := by
  constructor
  case onPlain =>
    intro a f s h same
    exact h.modSt (by rw [same.inService]; exact id)
  case onAttach =>
    intro a s h _ _
    exact h.modSt fun _ => serviceOrdered_nil
  case onAcknowledge =>
    intro a n s h chosen
    exact h.modSt fun own => own.acknowledge (StationRec.eligible_of_chosenSource chosen)
  case onEndService =>
    intro a s h
    exact h.modSt serviceOrdered.dropLast
  case onQuiescing =>
    intro a s h _ _
    exact enterQuiescing_keeps_serviceOrdered h a
  case onReset =>
    intro v q a
    simpa [State.st, State.reset, StationRec.reset] using serviceOrdered_nil
  case onTick =>
    intro s h
    exact h.frame fun b => by simp [tickAll, State.st, StationRec.ticked]
  case onClearFlags | onQueueLimit | onPopConfirm | onClearOverflow | onDisabling =>
    intros
    exact State.ServiceOrdered.modSt ‹_› id
  case onRelease =>
    intros
    exact State.ServiceOrdered.endMessage (State.ServiceOrdered.modSt ‹_› id) _ _
  case onEnableRing | onResumeRing | onConsume =>
    intros
    exact State.ServiceOrdered.startIfIdle (State.ServiceOrdered.modSt ‹_› id)
  case onAnswer | onPending | onCount | onSetTick | onSetEngine | onReassert | onRetry =>
    intros
    exact State.ServiceOrdered.frame ‹_› fun _ => rfl
  case onCopyCompletion =>
    intros
    exact State.ServiceOrdered.frame ‹_› fun b => by simp
  case onBusGrant =>
    intros
    exact State.ServiceOrdered.frame ‹_› fun b => rfl
  all_goals
    intros
    exact State.ServiceOrdered.frame ‹_› (by simp)

/-- Settles O50: every update keeps the in-service lists ordered. -/
theorem inServiceListsStayOrdered : Obligations.InServiceListsStayOrdered := serviceOrdered_keptByUpdates.keepsStep

end Sys2Proof.Machine
end

section
/-! The class queues, limits and confirmation lists (R59, R60, R88), and the form of the cell store, as step invariants. -/

namespace Sys2Proof.Machine

-- One proof at a time: many at once take more threads than the check allows.
set_option Elab.async false

/-! ### The offer of a confirmation -/

/-- The record after a confirmation is offered to its list (R88): it joins a list with room, and a full list overflows. -/
def StationRec.offered (e : Confirmation) (r : StationRec) : StationRec :=
  if r.confirms.length < 16 then StationRec.raised 6 { r with confirms := r.confirms ++ [e] }
  else StationRec.faulted .confirmOverflow (BitVec.ofNat 32 e.channel.val) { r with confirmOverflow := true }

/-- Ties `StationRec.offered` to the model. -/
theorem offerConfirmation_eq (a : StationId) (e : Confirmation) (s : State) :
    offerConfirmation a e s = s.modSt a (StationRec.offered e) := by
  unfold offerConfirmation
  by_cases room : (s.st a).confirms.length < 16
  · rw [if_pos (show _ < Config.confirmCapacity from room), setSource_eq, State.modSt_modSt]
    unfold State.modSt StationRec.offered
    rw [if_pos room]
    rfl
  · rw [if_neg (show ¬ _ < Config.confirmCapacity from room), recordFault_eq, State.modSt_modSt]
    unfold State.modSt StationRec.offered
    rw [if_neg room]

/-! ### Limits -/

/-- The laws of one station's lists: what `State.ListsWithinLimits` says of it. -/
def StationRec.WithinLimits (r : StationRec) : Prop :=
  (∀ c, (r.queue c).length ≤ (r.limit c).val ∧ 1 ≤ (r.limit c).val) ∧ r.confirms.length ≤ Config.confirmCapacity ∧
    (r.state = .offline → ∀ c, r.queue c = [])

theorem State.listsWithinLimits_iff (s : State) : s.ListsWithinLimits ↔ ∀ a, (s.st a).WithinLimits := Iff.rfl

theorem StationRec.WithinLimits.congr {r t : StationRec} (h : r.WithinLimits) (queues : t.queues = r.queues)
    (limits : t.limits = r.limits) (confirms : t.confirms = r.confirms) (state : t.state = r.state) : t.WithinLimits := by
  unfold StationRec.WithinLimits StationRec.queue StationRec.limit
  rw [queues, limits, confirms, state]
  exact h

/-- One queue loses its head. -/
theorem StationRec.WithinLimits.tail {r : StationRec} (h : r.WithinLimits) (c : ClassId) :
    (r.setQueue c (r.queue c).tail).WithinLimits := by
  obtain ⟨queues, confirms, offline⟩ := h
  refine ⟨fun e => ?_, confirms, fun off e => ?_⟩
  · by_cases same : e = c
    · subst same
      obtain ⟨fits, pos⟩ := queues e
      refine ⟨?_, pos⟩
      rw [StationRec.queue_setQueue_same, List.length_tail]
      exact (Nat.sub_le _ _).trans fits
    · rw [StationRec.queue_setQueue_ne _ _ same]
      exact queues e
  · by_cases same : e = c
    · subst same; simp [offline off e]
    · simp [same, offline off e]

/-- An ONLINE station's queue below its limit takes one more message (R52, R62). -/
theorem StationRec.WithinLimits.append {r : StationRec} (h : r.WithinLimits) {c : ClassId} (online : r.state = .online)
    (room : (r.queue c).length < (r.limit c).val) (d : DescId) : (r.setQueue c (r.queue c ++ [d])).WithinLimits := by
  obtain ⟨queues, confirms, -⟩ := h
  refine ⟨fun e => ?_, confirms, fun off => ?_⟩
  · by_cases same : e = c
    · subst same
      refine ⟨?_, (queues e).2⟩
      rw [StationRec.queue_setQueue_same, List.length_append, List.length_singleton]
      exact room
    · rw [StationRec.queue_setQueue_ne _ _ same]
      exact queues e
  · exact absurd (online.symm.trans off) (by decide)

/-- A record with empty queues and limits of 1 or more. -/
theorem StationRec.withinLimits_of_empty {r : StationRec} (queues : ∀ c, r.queue c = []) (limits : ∀ c, 1 ≤ (r.limit c).val)
    (confirms : r.confirms.length ≤ Config.confirmCapacity) : r.WithinLimits :=
  ⟨fun c => ⟨by simp [queues c], limits c⟩, confirms, fun _ => queues⟩

theorem StationRec.WithinLimits.confirmed {r : StationRec} (h : r.WithinLimits) {l : List Confirmation}
    (short : l.length ≤ Config.confirmCapacity) : ({ r with confirms := l } : StationRec).WithinLimits := by
  obtain ⟨queues, -, offline⟩ := h
  exact ⟨queues, short, offline⟩

theorem StationRec.WithinLimits.offered {r : StationRec} (h : r.WithinLimits) (e : Confirmation) :
    (r.offered e).WithinLimits := by
  unfold StationRec.offered
  split
  · rename_i room
    refine StationRec.WithinLimits.congr (r := { r with confirms := r.confirms ++ [e] }) (h.confirmed ?_) rfl rfl rfl rfl
    rw [List.length_append, List.length_singleton]
    exact room
  · exact h.congr rfl rfl rfl rfl

theorem State.ListsWithinLimits.frame {s t : State} (h : s.ListsWithinLimits)
    (same : ∀ b, (t.st b).queues = (s.st b).queues ∧ (t.st b).limits = (s.st b).limits ∧
      (t.st b).confirms = (s.st b).confirms ∧ (t.st b).state = (s.st b).state) : t.ListsWithinLimits := fun b => by
  obtain ⟨queues, limits, confirms, state⟩ := same b
  exact StationRec.WithinLimits.congr (h b) queues limits confirms state

theorem State.ListsWithinLimits.modSt {s : State} (h : s.ListsWithinLimits) {a : StationId} {f : StationRec → StationRec}
    (own : (s.st a).WithinLimits → (f (s.st a)).WithinLimits) : (s.modSt a f).ListsWithinLimits := fun b => by
  by_cases e : b = a
  · subst e
    rw [State.st_modSt_same]
    exact own (h b)
  · rw [State.st_modSt_ne _ _ e]
    exact h b

theorem State.ListsWithinLimits.startIfIdle {s : State} (h : s.ListsWithinLimits) :
    (startIfIdle s).ListsWithinLimits := h.frame (by simp)

theorem confirmEnd_keeps_listsWithinLimits {s : State} (h : s.ListsWithinLimits) (o : EndOutcome) (m : Message) :
    (confirmEnd o m s).ListsWithinLimits := by
  unfold confirmEnd
  split
  · rw [offerConfirmation_eq]
    exact h.modSt fun own => own.offered _
  · exact h

theorem State.ListsWithinLimits.endMessage {s : State} (h : s.ListsWithinLimits) (o : EndOutcome) (d : DescId) :
    (endMessage o d s).ListsWithinLimits := by
  unfold Machine.endMessage
  split
  · rename_i m _
    have disposed : (disposeLock o m s).ListsWithinLimits := h.frame (by simp)
    exact (confirmEnd_keeps_listsWithinLimits disposed o m).frame (by simp)
  · exact h

theorem State.ListsWithinLimits.enterOffline {s : State} (h : s.ListsWithinLimits) (a : StationId) :
    (enterOffline a s).ListsWithinLimits := by
  have emptied : ((s.modSt a fun r => { r with state := .offline }).modSt a fun r =>
      { r with queues := Vector.replicate 4 [], readSlot := none }).ListsWithinLimits := by
    rw [State.modSt_modSt]
    exact h.modSt fun ⟨queues, confirms, _⟩ =>
      StationRec.withinLimits_of_empty (fun c => by simp [StationRec.queue]) (fun c => (queues c).2) confirms
  have purged : (purge a (s.modSt a fun r => { r with state := .offline })).ListsWithinLimits := by
    unfold purge discardAll
    exact foldl_keeps (P := State.ListsWithinLimits) (fun t d ht => ht.endMessage .discarded d) _ _ emptied
  have released : (releaseHoldings a (purge a (s.modSt a fun r => { r with state := .offline }))).ListsWithinLimits :=
    purged.frame (by simp)
  unfold Machine.enterOffline
  refine released.modSt fun own => ?_
  exact StationRec.WithinLimits.congr (own.confirmed (l := []) (Nat.zero_le _)) rfl rfl rfl rfl

theorem State.ListsWithinLimits.quiesce {s : State} (h : s.ListsWithinLimits) (a : StationId) :
    (quiesce a s).ListsWithinLimits := by
  unfold Machine.quiesce
  split
  · exact h.enterOffline a
  · exact h

theorem enterQuiescing_keeps_listsWithinLimits {s : State} (h : s.ListsWithinLimits) (a : StationId) :
    (enterQuiescing a s).ListsWithinLimits := by
  have quiescing : (s.modSt a fun r => { r with state := .quiescing }).ListsWithinLimits :=
    h.modSt fun ⟨queues, confirms, _⟩ => ⟨queues, confirms, fun off => absurd off (by simp)⟩
  have left : (abandonDelivery a (leaveWait a .cancelled (removeWaiting (fun e => e.station == a) .cancelled false
      (s.modSt a fun r => { r with state := .quiescing })))).ListsWithinLimits := quiescing.frame (by simp)
  unfold enterQuiescing
  exact State.ListsWithinLimits.quiesce (left.modSt fun own => own.congr rfl rfl rfl rfl) a

theorem enqueue_keeps_listsWithinLimits {s : State} (h : s.ListsWithinLimits) {m : Message} (late : lateCheck m s = none)
    (d : DescId) : (enqueue d m s).ListsWithinLimits := by
  have appended : (s.modSt m.dest fun r => r.setQueue m.cls (r.queue m.cls ++ [d])).ListsWithinLimits := by
    unfold lateCheck at late
    split at late
    · simp at late
    · rename_i online
      split at late
      · simp at late
      · rename_i room
        exact h.modSt fun own => own.append (by simpa using online) (by omega) d
  unfold enqueue
  dsimp only
  split
  · exact appended.frame (by simp)
  · exact appended.frame (by simp)

theorem attemptEnqueue_keeps_listsWithinLimits {s : State} (h : s.ListsWithinLimits) (a : StationId) (p : Post)
    (d : DescId) (m : Message) : (attemptEnqueue a p d m s).ListsWithinLimits := by
  unfold attemptEnqueue
  split
  · exact (enqueue_keeps_listsWithinLimits h ‹_› d).frame (by simp)
  · have failed : (endFailedEnqueue d s).ListsWithinLimits := h.frame (by simp)
    exact failed.frame (by simp)

/-- Every update keeps the lists within their limits. The updates not named touch no queue, limit, confirmation list or
station state. -/
theorem listsWithinLimits_keptByUpdates : KeptByUpdates State.ListsWithinLimits := by
  constructor
  case onPlain =>
    intro a f s h same
    exact h.modSt fun own => own.congr same.queues same.limits same.confirms same.state
  case onAttach =>
    intro a s h _ offline
    exact h.modSt fun ⟨_, _, empty⟩ => StationRec.withinLimits_of_empty (empty offline)
      (fun c => by simp [StationRec.limit, StationRec.attached, Config.resetQueueLimit]) (Nat.zero_le _)
  case onQuiescing =>
    intro a s h _ _
    exact enterQuiescing_keeps_listsWithinLimits h a
  case onTake =>
    intro a c d rest s h _ _ _ _
    cases hm : s.msg d with
    | none => rwa [takeHead, hm]
    | some m =>
      rw [takeHead, hm]
      have taken : (s.modSt a fun r => { r.setQueue c (r.queue c).tail with
          readSlot := some { desc := d, header0 := headerWord0 m, header1 := headerWord1 m } }).ListsWithinLimits :=
        h.modSt fun own => (own.tail c).congr rfl rfl rfl rfl
      exact taken.frame (by simp)
  case onRelease =>
    intros
    exact State.ListsWithinLimits.endMessage (State.ListsWithinLimits.modSt ‹_› fun own => own.congr rfl rfl rfl rfl) _ _
  case onQueueLimit =>
    intro a c limit s h online pos room
    refine h.modSt fun ⟨queues, confirms, offline⟩ => ⟨fun e => ?_, confirms, offline⟩
    by_cases same : e = c
    · subst same
      have positive : 1 ≤ limit.val := Nat.one_le_iff_ne_zero.mpr fun zero => pos (Fin.ext zero)
      simpa [StationRec.limit, StationRec.queue] using ⟨Nat.le_of_not_lt room, positive⟩
    · simpa [StationRec.limit, StationRec.queue, same] using queues e
  case onPopConfirm =>
    intro a e rest s h _ entries
    refine h.modSt fun own => own.confirmed ?_
    obtain ⟨-, short, -⟩ := own
    rw [entries, List.length_cons] at short
    exact (Nat.le_succ _).trans short
  case onReset =>
    intro v q a
    refine StationRec.withinLimits_of_empty (fun c => ?_) (fun c => ?_) ?_
    all_goals simp [State.st, State.reset, StationRec.reset, StationRec.queue, StationRec.limit, Config.resetQueueLimit]
  case onTick =>
    intro s h
    exact h.frame fun b => by simp [tickAll, State.st, StationRec.ticked]
  case onCopyCompletion =>
    intro a p d m s h _ _
    refine State.ListsWithinLimits.quiesce (State.ListsWithinLimits.startIfIdle
      (attemptEnqueue_keeps_listsWithinLimits ?_ a p d m)) a
    exact h.frame fun _ => ⟨rfl, rfl, rfl, rfl⟩
  case onComplete =>
    intro d c s h _ _
    have advanced : (advanceRing d s).ListsWithinLimits := by
      unfold advanceRing
      exact h.modSt fun own => (own.tail d.cls).congr rfl rfl rfl rfl
    unfold completeDelivery
    exact (advanced.endMessage .delivered d.desc).frame (by simp)
  case onClearFlags | onClearOverflow | onAcknowledge | onEndService | onDisabling =>
    intros
    exact State.ListsWithinLimits.modSt ‹_› fun own => own.congr rfl rfl rfl rfl
  case onEnableRing | onResumeRing | onConsume =>
    intros
    exact State.ListsWithinLimits.startIfIdle (State.ListsWithinLimits.modSt ‹_› fun own => own.congr rfl rfl rfl rfl)
  case onAnswer | onPending | onCount | onSetTick | onSetEngine | onReassert | onRetry | onBusGrant =>
    intros
    exact State.ListsWithinLimits.frame ‹_› fun _ => ⟨rfl, rfl, rfl, rfl⟩
  all_goals
    intros
    exact State.ListsWithinLimits.frame ‹_› (by simp)

/-- Settles O52: every update keeps the lists within their limits. -/
theorem listsStayWithinLimits : Obligations.ListsStayWithinLimits := listsWithinLimits_keptByUpdates.keepsStep

/-! ### The cell store -/

/-- The cell store is in canonical form. -/
def State.StoreCanonical (s : State) : Prop := CellStore.wf s.cellStore = true

theorem State.StoreCanonical.frame {s t : State} (h : s.StoreCanonical) (same : t.cellStore = s.cellStore) :
    t.StoreCanonical := by
  unfold State.StoreCanonical
  rwa [same]

/-- Every update keeps the form: a copy writes the store, RESET empties it, and no other update touches it. -/
theorem storeCanonical_keptByUpdates : KeptByUpdates State.StoreCanonical := by
  constructor
  case onCopyCompletion =>
    intro a p d m s h _ _
    refine State.StoreCanonical.frame (s := { s with
      cellStore := copyPayload m.cells m.length (s.st a).staging s.cellStore }) ?_ (by simp)
    exact copyPayload_keeps_wf m.cells m.length (s.st a).staging h
  case onReset =>
    intros
    exact reset_cellStore_wf
  case onAnswer | onPending | onCount | onSetTick | onSetEngine | onReassert | onRetry | onTick | onBusGrant =>
    intros
    exact State.StoreCanonical.frame ‹_› rfl
  all_goals
    intros
    exact State.StoreCanonical.frame ‹_› (by simp)

/-- Settles O53: every update keeps the canonical form. -/
theorem cellStoreStaysCanonical : Obligations.CellStoreStaysCanonical := storeCanonical_keptByUpdates.keepsStep

end Sys2Proof.Machine
end

section
/-! The counters as a step invariant (R12, R96, R124, R127, R133, R136, R184): the Delivery Engine's, the timers of the room
queue, those of the lock waits, and the tick counter, each kept by every update. -/

namespace Sys2Proof.Machine

-- One proof at a time: many at once take more threads than the check allows.
set_option Elab.async false

/-! ### The Delivery Engine -/

/-- An engine state's retry count and response timer are in their ranges. -/
def EngineState.InRange (e : EngineState) : Prop :=
  (∀ d ∈ e.delivery, d.retries ≤ 7) ∧ ∀ d c, e = .transfer d c → c.timer ≤ 255

/-- What `State.CountersInRange` says of the Delivery Engine. -/
structure State.EngineInRange (s : State) : Prop where
  response : 1 ≤ s.responseLimit ∧ s.responseLimit ≤ 255
  retry : s.retryBudget ≤ 7
  burstLimit : 1 ≤ s.burstLimit ∧ s.burstLimit ≤ 16
  burst : s.burst ≤ 16
  owning : s.bown = true → s.burst < s.burstLimit ∧ s.gap = false
  engine : s.engine.InRange

theorem EngineState.inRange_idle : EngineState.idle.InRange := by simp [EngineState.InRange, EngineState.delivery]

theorem EngineState.inRange_busWait {d : Delivery} (h : d.retries ≤ 7) : (EngineState.busWait d).InRange := by
  simp [EngineState.InRange, EngineState.delivery, h]

theorem EngineState.inRange_transfer {d : Delivery} {c : Cycle} (h : d.retries ≤ 7) (timer : c.timer ≤ 255) :
    (EngineState.transfer d c).InRange := by
  simp [EngineState.InRange, EngineState.delivery, h, timer]

theorem EngineState.InRange.ticked {e : EngineState} (h : e.InRange) : e.ticked.InRange := by
  obtain ⟨retries, timers⟩ := h
  cases e with
  | idle => exact inRange_idle
  | busWait d => exact inRange_busWait (retries d rfl)
  | transfer d c => exact inRange_transfer (retries d rfl) ((Nat.sub_le _ _).trans (timers d c rfl))

/-- A state that differs in nothing the Delivery Engine counts. -/
structure SameEngine (s t : State) : Prop where
  engine : t.engine = s.engine
  gap : t.gap = s.gap
  burst : t.burst = s.burst
  responseLimit : t.responseLimit = s.responseLimit
  retryBudget : t.retryBudget = s.retryBudget
  burstLimit : t.burstLimit = s.burstLimit

theorem State.EngineInRange.frame {s t : State} (h : s.EngineInRange) (same : SameEngine s t) : t.EngineInRange := by
  obtain ⟨engine, gap, burst, response, retry, limit⟩ := same
  have bown : t.bown = s.bown := by unfold State.bown; rw [engine]
  constructor
  · rw [response]; exact h.response
  · rw [retry]; exact h.retry
  · rw [limit]; exact h.burstLimit
  · rw [burst]; exact h.burst
  · rw [bown, burst, limit, gap]; exact h.owning
  · rw [engine]; exact h.engine

/-- The engine leaves TRANSFER, or stays out of it; the burst count is what it may be. -/
theorem State.EngineInRange.parked {s : State} (h : s.EngineInRange) {e : EngineState} {gap : Bool} {n : Nat}
    (range : e.InRange) (out : ∀ d c, e ≠ .transfer d c) (count : n ≤ 16) :
    ({ s with engine := e, gap := gap, burst := n } : State).EngineInRange :=
  ⟨h.response, h.retry, h.burstLimit, count, fun own => by
    cases e with
    | transfer d c => exact absurd rfl (out d c)
    | idle => simp [State.bown] at own
    | busWait d => simp [State.bown] at own, range⟩

theorem State.nextDelivery_retries {s : State} {d : Delivery} (h : s.nextDelivery = some d) : d.retries = 0 := by
  unfold State.nextDelivery at h
  split at h
  · unfold State.formDelivery at h
    split at h
    · simp at h
    · split at h
      · simp at h
      · split at h
        · simp at h
        · rw [← Option.some.inj h]
  · simp at h

theorem State.EngineInRange.startIfIdle {s : State} (h : s.EngineInRange) : (startIfIdle s).EngineInRange := by
  unfold Machine.startIfIdle
  split
  · rename_i d _ next
    have waiting : (EngineState.busWait d).InRange :=
      EngineState.inRange_busWait (by rw [State.nextDelivery_retries next]; exact Nat.zero_le _)
    exact (h.parked waiting (by simp) (gap := s.gap) h.burst).frame
      ⟨rfl, by simp, by simp, by simp, by simp, by simp⟩
  · exact h

theorem State.EngineInRange.releaseToIdle {s : State} (h : s.EngineInRange) : (releaseToIdle s).EngineInRange := by
  unfold Machine.releaseToIdle
  exact State.EngineInRange.startIfIdle (h.parked EngineState.inRange_idle (by simp) h.burst)

theorem State.EngineInRange.issueWrite {s : State} (h : s.EngineInRange) {d : Delivery} (retries : d.retries ≤ 7)
    (below : s.burst < s.burstLimit) (noGap : s.gap = false) : (issueWrite d s).EngineInRange :=
  ⟨h.response, h.retry, h.burstLimit, h.burst, fun _ => ⟨below, noGap⟩,
    EngineState.inRange_transfer retries h.response.2⟩

theorem State.EngineInRange.advanceBurst {s : State} (h : s.EngineInRange) (owning : s.bown = true) :
    (advanceBurst s).EngineInRange := by
  obtain ⟨below, noGap⟩ := h.owning owning
  have count : s.burst + 1 ≤ 16 := below.trans_le h.burstLimit.2
  unfold Machine.advanceBurst
  split
  · rename_i more
    have counted : ({ s with burst := s.burst + 1 } : State).EngineInRange :=
      ⟨h.response, h.retry, h.burstLimit, count, fun _ => ⟨more, noGap⟩, h.engine⟩
    unfold continueBurst
    split
    · rename_i d next
      have adopted : (adoptDelivery d { s with burst := s.burst + 1 }).EngineInRange :=
        counted.frame ⟨by simp, by simp, by simp, by simp, by simp, by simp⟩
      exact adopted.issueWrite (by rw [State.nextDelivery_retries next]; exact Nat.zero_le _) (by simpa using more)
        (by simpa using noGap)
    · exact counted.releaseToIdle
  · unfold Machine.releaseToIdle
    exact State.EngineInRange.startIfIdle (h.parked EngineState.inRange_idle (by simp) count)

theorem faultDelivery_keeps_engineInRange {s : State} (h : s.EngineInRange) (d : Delivery) (code : FaultCode)
    (addr : Word) : (faultDelivery d code addr s).EngineInRange := by
  unfold faultDelivery
  refine State.EngineInRange.releaseToIdle (h.frame ?_)
  dsimp only
  split
  · exact ⟨by simp, by simp, by simp, by simp, by simp, by simp⟩
  · exact ⟨by simp, by simp, by simp, by simp, by simp, by simp⟩

theorem abandonDelivery_keeps_engineInRange {s : State} (h : s.EngineInRange) (a : StationId) :
    (abandonDelivery a s).EngineInRange := by
  unfold abandonDelivery
  split
  · split
    · exact State.EngineInRange.releaseToIdle (h.frame ⟨by simp, by simp, by simp, by simp, by simp, by simp⟩)
    · exact h
  · exact h

theorem enterQuiescing_keeps_engineInRange {s : State} (h : s.EngineInRange) (a : StationId) :
    (enterQuiescing a s).EngineInRange := by
  have left : (leaveWait a .cancelled (removeWaiting (fun e => e.station == a) .cancelled false
      (s.modSt a fun r => { r with state := .quiescing }))).EngineInRange :=
    h.frame ⟨by simp, by simp, by simp, by simp, by simp, by simp⟩
  unfold enterQuiescing
  exact (abandonDelivery_keeps_engineInRange left a).frame ⟨by simp, by simp, by simp, by simp, by simp, by simp⟩

theorem State.EngineInRange.modSt {s : State} (h : s.EngineInRange) {a : StationId} {f : StationRec → StationRec} :
    (s.modSt a f).EngineInRange := h.frame ⟨rfl, rfl, rfl, rfl, rfl, rfl⟩

/-- Every update keeps the engine's counters in range. The updates not named touch none of them. -/
theorem engineInRange_keptByUpdates : KeptByUpdates State.EngineInRange := by
  constructor
  case onQuiescing =>
    intro a s h _ _
    exact enterQuiescing_keeps_engineInRange h a
  case onSetEngine =>
    intro x y z s h idle x_pos z_pos z_le
    have response : 1 ≤ x.val := Nat.one_le_iff_ne_zero.mpr fun zero => x_pos (Fin.ext zero)
    have limit : 1 ≤ z.val := Nat.one_le_iff_ne_zero.mpr fun zero => z_pos (Fin.ext zero)
    have owning : s.bown = true → s.burst < z.val ∧ s.gap = false := by simp [idle]
    exact ⟨⟨response, Nat.le_of_lt_succ x.isLt⟩, Nat.le_of_lt_succ y.isLt, ⟨limit, z_le⟩, h.burst, owning, h.engine⟩
  case onReset =>
    intro v q
    exact ⟨⟨(by decide : 1 ≤ 8), (by decide : 8 ≤ 255)⟩, (by decide : 2 ≤ 7), ⟨(by decide : 1 ≤ 1), (by decide : 1 ≤ 16)⟩,
      Nat.zero_le _, by simp [State.bown, State.reset], EngineState.inRange_idle⟩
  case onTick =>
    intro s h
    have bown : (tickAll s).bown = s.bown := by
      unfold State.bown tickAll
      cases s.engine <;> rfl
    exact ⟨h.response, h.retry, h.burstLimit, h.burst, by rw [bown]; exact h.owning, h.engine.ticked⟩
  case onFaultDelivery =>
    intro d c code addr s h _
    exact faultDelivery_keeps_engineInRange h d code addr
  case onCopyCompletion =>
    intro a p d m s h _ _
    have attempted : (attemptEnqueue a p d m { s with
        cellStore := copyPayload m.cells m.length (s.st a).staging s.cellStore }).EngineInRange :=
      h.frame ⟨by simp, by simp, by simp, by simp, by simp, by simp⟩
    exact attempted.startIfIdle.frame ⟨by simp, by simp, by simp, by simp, by simp, by simp⟩
  case onBusGrant =>
    intro d s h waiting noGap
    have counted : ({ s with burst := 0 } : State).EngineInRange :=
      h.parked (e := s.engine) (gap := s.gap) h.engine (by simp [waiting]) (Nat.zero_le _)
    exact counted.issueWrite (h.engine.1 d (by simp [waiting, EngineState.delivery])) h.burstLimit.1 noGap
  case onReassert =>
    intro s h
    exact ⟨h.response, h.retry, h.burstLimit, h.burst, fun own => ⟨(h.owning own).1, rfl⟩, h.engine⟩
  case onNextWrite =>
    intro d c w s h transfer _
    have owning : s.bown = true := by simp [State.bown, transfer]
    obtain ⟨below, noGap⟩ := h.owning owning
    exact h.issueWrite (d := { d with next := w }) (h.engine.1 d (by simp [transfer, EngineState.delivery])) below noGap
  case onComplete =>
    intro d c s h transfer _
    unfold completeDelivery
    refine State.EngineInRange.advanceBurst (h.frame ⟨by simp, by simp, by simp, by simp, by simp, by simp⟩) ?_
    simp [State.bown, transfer]
  case onRetry =>
    intro d c s h _ within
    exact h.parked (EngineState.inRange_busWait (within.trans h.retry)) (by simp) h.burst
  case onEnableRing | onResumeRing | onConsume =>
    intros
    exact State.EngineInRange.startIfIdle (State.EngineInRange.modSt ‹_›)
  case onAnswer | onPending =>
    intro s x h
    exact h.frame ⟨rfl, rfl, rfl, rfl, rfl, rfl⟩
  case onCount =>
    intro s h _
    exact h.frame ⟨rfl, rfl, rfl, rfl, rfl, rfl⟩
  case onSetTick =>
    intro n s h _ _
    exact h.frame ⟨rfl, rfl, rfl, rfl, rfl, rfl⟩
  all_goals
    intros
    exact State.EngineInRange.frame ‹_› ⟨by simp, by simp, by simp, by simp, by simp, by simp⟩

/-! ### The timers of the room queue -/

/-- Every entry of the room queue meets `Q`. -/
def State.EntriesMeet (Q : RoomEntry → Prop) (s : State) : Prop := ∀ e ∈ s.roomQueue, Q e

section
variable {Q : RoomEntry → Prop}

theorem State.EntriesMeet.frame {s t : State} (h : s.EntriesMeet Q) (same : t.roomQueue = s.roomQueue) :
    t.EntriesMeet Q := by
  unfold State.EntriesMeet
  rwa [same]

theorem State.EntriesMeet.examine {s : State} (h : s.EntriesMeet Q) : (examine s).EntriesMeet Q := fun e he =>
  h e ((examineAmong_suffix _ _).subset he)

theorem State.EntriesMeet.removeWaiting {s : State} (h : s.EntriesMeet Q) (p : RoomEntry → Bool) (o : SendOutcome)
    (sent : Bool) : (removeWaiting p o sent s).EntriesMeet Q := fun e he => h e (mem_removeWaiting he).1

theorem State.EntriesMeet.freeMessage {s : State} (h : s.EntriesMeet Q) (d : DescId) (m : Message) :
    (freeMessage d m s).EntriesMeet Q := by
  unfold Machine.freeMessage
  exact State.EntriesMeet.examine (h.frame rfl)

theorem State.EntriesMeet.endMessage {s : State} (h : s.EntriesMeet Q) (o : EndOutcome) (d : DescId) :
    (endMessage o d s).EntriesMeet Q := by
  unfold Machine.endMessage
  split
  · exact State.EntriesMeet.freeMessage (h.frame (by simp)) _ _
  · exact h

theorem State.EntriesMeet.endFailedEnqueue {s : State} (h : s.EntriesMeet Q) (d : DescId) :
    (endFailedEnqueue d s).EntriesMeet Q := by
  unfold Machine.endFailedEnqueue
  split
  · exact State.EntriesMeet.freeMessage (h.frame (by simp)) _ _
  · exact h

theorem State.EntriesMeet.enterOffline {s : State} (h : s.EntriesMeet Q) (a : StationId) :
    (enterOffline a s).EntriesMeet Q := by
  have purged : (purge a (s.modSt a fun r => { r with state := .offline })).EntriesMeet Q := by
    unfold purge discardAll
    exact foldl_keeps (P := State.EntriesMeet Q) (fun t d ht => ht.endMessage .discarded d) _ _ (h.frame rfl)
  unfold Machine.enterOffline
  exact purged.frame (by simp)

theorem State.EntriesMeet.quiesce {s : State} (h : s.EntriesMeet Q) (a : StationId) : (quiesce a s).EntriesMeet Q := by
  unfold Machine.quiesce
  split
  · exact h.enterOffline a
  · exact h

theorem State.EntriesMeet.attemptEnqueue {s : State} (h : s.EntriesMeet Q) (a : StationId) (p : Post) (d : DescId)
    (m : Message) : (attemptEnqueue a p d m s).EntriesMeet Q := by
  unfold Machine.attemptEnqueue
  split
  · exact h.frame (by simp)
  · exact (h.endFailedEnqueue d).frame (by simp)

theorem State.EntriesMeet.enterQuiescing {s : State} (h : s.EntriesMeet Q) (a : StationId) :
    (enterQuiescing a s).EntriesMeet Q := by
  have quiescing : (s.modSt a fun r => { r with state := .quiescing }).EntriesMeet Q := h.frame rfl
  unfold Machine.enterQuiescing
  exact State.EntriesMeet.quiesce ((quiescing.removeWaiting (fun e => e.station == a) .cancelled false).frame (by simp)) a

theorem State.EntriesMeet.completeDelivery {s : State} (h : s.EntriesMeet Q) (d : Delivery) :
    (completeDelivery d s).EntriesMeet Q := by
  have advanced : (advanceRing d s).EntriesMeet Q := h.frame (by simp)
  unfold Machine.completeDelivery
  exact (advanced.endMessage .delivered d.desc).frame (by simp)
end

/-- What `State.CountersInRange` says of the room queue. -/
def State.RoomTimersInRange (s : State) : Prop := s.EntriesMeet fun e => ∀ n ∈ e.timer, n ≤ 65535

/-- A latched limit is of 16 bits. -/
theorem startTimer_le {limit : Half} {n : Nat} (h : n ∈ startTimer limit) : n ≤ 65535 := by
  unfold startTimer at h
  split at h
  · simp at h
  · obtain rfl := Option.some.inj h
    have := limit.isLt
    omega

theorem countTick_le {timer : Option Nat} {k n : Nat} (h : ∀ m ∈ timer, m ≤ k) (hn : n ∈ countTick timer) : n ≤ k := by
  obtain ⟨m, hm, rfl⟩ := Option.map_eq_some_iff.mp hn
  exact (Nat.sub_le _ _).trans (h m hm)

/-- Every update keeps the room-wait timers in range: a waiting POST latches one, a tick lowers them, and every other
leaves entries of the queue as they are. -/
theorem roomTimersInRange_keptByUpdates : KeptByUpdates State.RoomTimersInRange := by
  constructor
  case onPostWait =>
    intro a ch len pass l p s h _ _ _ _ _ e he n hn
    have queue : (joinRoomQueue a p (acceptPost a p s)).roomQueue = s.roomQueue ++
        [{ station := a, channel := p.channel, cellsNeeded := p.cellsNeeded
           timer := startTimer (s.st a).roomWaitLimit }] := by simp [joinRoomQueue]
    rw [queue] at he
    rcases List.mem_append.mp he with old | new
    · exact h e old n hn
    · obtain rfl := List.mem_singleton.mp new
      exact startTimer_le hn
  case onTick =>
    intro s h e he n hn
    obtain ⟨x, hx, rfl⟩ := List.mem_map.mp he
    exact countTick_le (h x hx) hn
  case onReset =>
    intro v q e he
    simp [State.reset] at he
  case onQuiescing =>
    intros
    exact State.EntriesMeet.enterQuiescing ‹_› _
  case onCancelPost | onRoomTimer =>
    intros
    exact State.EntriesMeet.removeWaiting ‹_› _ _ _
  case onCloseChannel =>
    intro ch s h _
    have closed : (s.modChan ch fun e => { e with state := .closed }).RoomTimersInRange := h
    exact State.EntriesMeet.removeWaiting closed _ _ _
  case onRelease =>
    intro a slot s h _ _
    have emptied : (s.modSt a fun r => { r with readSlot := none }).RoomTimersInRange := h
    exact State.EntriesMeet.endMessage emptied _ _
  case onCopyCompletion =>
    intro a p d m s h _ _
    have copied : ({ s with cellStore := copyPayload m.cells m.length (s.st a).staging s.cellStore } :
      State).RoomTimersInRange := h
    exact State.EntriesMeet.quiesce ((State.EntriesMeet.attemptEnqueue copied a p d m).frame (by simp)) a
  case onComplete =>
    intros
    exact State.EntriesMeet.completeDelivery ‹_› _
  case onAnswer | onPending | onCount | onSetTick | onSetEngine | onReassert | onRetry | onBusGrant =>
    intros
    assumption
  all_goals
    intros
    exact State.EntriesMeet.frame ‹_› (by simp)

/-! ### The timers of the lock waits -/

/-- Every lock wait meets `Q`. -/
def State.WaitsMeet (Q : LockWait → Prop) (s : State) : Prop := ∀ b, ∀ w ∈ (s.st b).wait, Q w

section
variable {Q : LockWait → Prop}

theorem State.WaitsMeet.frame {s t : State} (h : s.WaitsMeet Q) (same : ∀ b, (t.st b).wait = (s.st b).wait) :
    t.WaitsMeet Q := fun b w hw => h b w (by rwa [← same b])

/-- One station's wait ends, or stays. -/
theorem State.WaitsMeet.modSt {s : State} (h : s.WaitsMeet Q) {a : StationId} {f : StationRec → StationRec}
    (own : ∀ w ∈ (f (s.st a)).wait, Q w) : (s.modSt a f).WaitsMeet Q := fun b w hw => by
  by_cases e : b = a
  · subst e; exact own w (by simpa using hw)
  · exact h b w (by simpa [e] using hw)

theorem State.WaitsMeet.endWait {s : State} (h : s.WaitsMeet Q) (a : StationId) (o : WaitOutcome) :
    (endWait a o s).WaitsMeet Q := by
  unfold Machine.endWait
  exact h.modSt (by simp)

theorem State.WaitsMeet.leaveWait {s : State} (h : s.WaitsMeet Q) (a : StationId) (o : WaitOutcome) :
    (leaveWait a o s).WaitsMeet Q := by
  unfold Machine.leaveWait
  split
  · exact State.WaitsMeet.endWait (h.frame fun _ => rfl) a o
  · exact h

theorem State.WaitsMeet.handoffAmong {s : State} (h : s.WaitsMeet Q) (l : LockId) (ws : List StationId) :
    (handoffAmong l ws s).WaitsMeet Q := by
  induction ws generalizing s with
  | nil => exact h.frame fun _ => rfl
  | cons w rest ih =>
    unfold Machine.handoffAmong
    split
    · have held : (s.setLock l { state := .held w, waiters := rest }).WaitsMeet Q := h.frame fun _ => rfl
      exact (held.endWait w .granted).frame (by simp)
    · exact ih (h.endWait w .cancelled)

theorem State.WaitsMeet.handoff {s : State} (h : s.WaitsMeet Q) (l : LockId) : (handoff l s).WaitsMeet Q :=
  h.handoffAmong l _

theorem State.WaitsMeet.passLock {s : State} (h : s.WaitsMeet Q) (l : LockId) (r : StationId) :
    (passLock l r s).WaitsMeet Q := by
  unfold Machine.passLock
  split
  · have held : (s.setLock l { state := .held r, waiters := (s.lock l).waiters.erase r }).WaitsMeet Q :=
      h.frame fun _ => rfl
    exact (held.endWait r .granted).frame (by simp)
  · exact h.frame fun _ => rfl

theorem State.WaitsMeet.releaseHoldings {s : State} (h : s.WaitsMeet Q) (a : StationId) :
    (releaseHoldings a s).WaitsMeet Q :=
  foldl_keeps (P := State.WaitsMeet Q) (fun t l ht => by
    unfold releaseIfHeld
    split
    · exact ht.handoff l
    · exact ht) _ s h

theorem State.WaitsMeet.takeHead {s : State} (h : s.WaitsMeet Q) (a : StationId) (c : ClassId) (d : DescId) :
    (takeHead a c d s).WaitsMeet Q := by
  unfold Machine.takeHead
  split
  · rename_i m _
    have taken : (s.modSt a fun r => { r.setQueue c (r.queue c).tail with
        readSlot := some { desc := d, header0 := headerWord0 m, header1 := headerWord1 m } }).WaitsMeet Q := h.modSt (h a)
    unfold passCarried
    split
    · exact State.WaitsMeet.passLock (taken.frame (by simp)) _ a
    · exact taken.frame (by simp)
  · exact h

theorem State.WaitsMeet.endMessage {s : State} (h : s.WaitsMeet Q) (o : EndOutcome) (d : DescId) :
    (endMessage o d s).WaitsMeet Q := by
  have disposed : ∀ m, (disposeLock o m s).WaitsMeet Q := fun m => by
    unfold disposeLock
    split
    · exact h.passLock _ _
    · exact h.handoff _
    · exact h
  unfold Machine.endMessage
  split
  · rename_i m _
    exact (disposed m).frame (by simp)
  · exact h

theorem State.WaitsMeet.discardAll {s : State} (h : s.WaitsMeet Q) (ds : List DescId) : (discardAll ds s).WaitsMeet Q :=
  foldl_keeps (P := State.WaitsMeet Q) (fun _ d ht => ht.endMessage .discarded d) ds s h

theorem State.WaitsMeet.enterOffline {s : State} (h : s.WaitsMeet Q) (a : StationId) :
    (enterOffline a s).WaitsMeet Q := by
  have offline : (s.modSt a fun r => { r with state := .offline }).WaitsMeet Q := h.modSt (h a)
  have purged : (purge a (s.modSt a fun r => { r with state := .offline })).WaitsMeet Q := by
    have emptied : ((s.modSt a fun r => { r with state := .offline }).modSt a fun r =>
        { r with queues := Vector.replicate 4 [], readSlot := none }).WaitsMeet Q := offline.modSt (offline a)
    unfold purge
    exact emptied.discardAll _
  exact (purged.releaseHoldings a).frame fun b => by
    unfold Machine.enterOffline
    by_cases e : b = a
    · subst e; simp
    · simp [e]

theorem State.WaitsMeet.quiesce {s : State} (h : s.WaitsMeet Q) (a : StationId) : (quiesce a s).WaitsMeet Q := by
  unfold Machine.quiesce
  split
  · exact h.enterOffline a
  · exact h

theorem enterQuiescing_keeps_waitsMeet {s : State} (h : s.WaitsMeet Q) (a : StationId) :
    (enterQuiescing a s).WaitsMeet Q := by
  have quiescing : (s.modSt a fun r => { r with state := .quiescing }).WaitsMeet Q := h.modSt (h a)
  have removed : (removeWaiting (fun e => e.station == a) .cancelled false
      (s.modSt a fun r => { r with state := .quiescing })).WaitsMeet Q := quiescing.frame (by simp)
  have left : (abandonDelivery a (leaveWait a .cancelled (removeWaiting (fun e => e.station == a) .cancelled false
      (s.modSt a fun r => { r with state := .quiescing })))).WaitsMeet Q :=
    (removed.leaveWait a .cancelled).frame (by simp)
  unfold enterQuiescing
  exact State.WaitsMeet.quiesce (left.modSt (left a)) a

theorem State.WaitsMeet.startIfIdle {s : State} (h : s.WaitsMeet Q) : (startIfIdle s).WaitsMeet Q := h.frame (by simp)

theorem State.WaitsMeet.completeDelivery {s : State} (h : s.WaitsMeet Q) (d : Delivery) :
    (completeDelivery d s).WaitsMeet Q := by
  have advanced : (advanceRing d s).WaitsMeet Q := h.frame (by simp)
  unfold Machine.completeDelivery
  exact (advanced.endMessage .delivered d.desc).frame (by simp)
end

/-- What `State.CountersInRange` says of the lock waits. -/
def State.WaitTimersInRange (s : State) : Prop := s.WaitsMeet fun w => ∀ n ∈ w.timer, n ≤ 65535

/-- Every update keeps the wait timers in range: a waiting ACQUIRE latches one, a tick lowers them, and every other leaves
waits as they are or ends them. -/
theorem waitTimersInRange_keptByUpdates : KeptByUpdates State.WaitTimersInRange := by
  constructor
  case onPlain =>
    intro a f s h same
    exact State.WaitsMeet.modSt h (by rw [same.wait]; exact h a)
  case onAttach =>
    intro a s h _ _
    exact State.WaitsMeet.modSt h (by simp [StationRec.attached])
  case onJoinWaiters =>
    intro a l s h _ _ _ _
    have joined : (s.setLock l { state := (s.lock l).state, waiters := (s.lock l).waiters ++ [a] }).WaitTimersInRange := h
    unfold joinWaiters
    refine State.WaitsMeet.modSt joined fun w hw n hn => ?_
    obtain rfl := Option.some.inj hw
    exact startTimer_le hn
  case onTick =>
    intro s h b w hw n hn
    have ticked : ((tickAll s).st b).wait = (s.st b).wait.map fun w => { w with timer := countTick w.timer } := by
      simp [tickAll, State.st, StationRec.ticked]
    rw [ticked] at hw
    obtain ⟨x, hx, rfl⟩ := Option.map_eq_some_iff.mp hw
    exact countTick_le (h b x hx) hn
  case onReset =>
    intro v q b w hw
    simp [State.st, State.reset, StationRec.reset] at hw
  case onQuiescing =>
    intros
    exact enterQuiescing_keeps_waitsMeet ‹_› _
  case onTake =>
    intros
    exact State.WaitsMeet.takeHead ‹_› _ _ _
  case onRelease =>
    intro a slot s h _ _
    exact State.WaitsMeet.endMessage (State.WaitsMeet.modSt h (h a)) _ _
  case onHandoff =>
    intros
    exact State.WaitsMeet.handoff ‹_› _
  case onCancelWait =>
    intros
    exact State.WaitsMeet.leaveWait ‹_› _ _
  case onWaitTimer =>
    intro a s h _
    exact (State.WaitsMeet.leaveWait h a .timeout).frame (by simp)
  case onCopyCompletion =>
    intro a p d m s h _ _
    have attempted : (startIfIdle (attemptEnqueue a p d m { s with
        cellStore := copyPayload m.cells m.length (s.st a).staging s.cellStore })).WaitTimersInRange :=
      State.WaitsMeet.frame h fun b => by simp
    exact State.WaitsMeet.quiesce attempted a
  case onComplete =>
    intros
    exact State.WaitsMeet.completeDelivery ‹_› _
  case onEnableRing | onResumeRing =>
    intro a s h
    intros
    exact State.WaitsMeet.startIfIdle (State.WaitsMeet.modSt h (h a))
  case onConsume =>
    intro a v s h
    intros
    exact State.WaitsMeet.startIfIdle (State.WaitsMeet.modSt h (h a))
  case onClearFlags | onAcknowledge =>
    intro a x s h
    intros
    exact State.WaitsMeet.modSt h (h a)
  case onQueueLimit | onPopConfirm =>
    intro a c limit s h
    intros
    exact State.WaitsMeet.modSt h (h a)
  case onClearOverflow | onEndService | onDisabling =>
    intro a s h
    intros
    exact State.WaitsMeet.modSt h (h a)
  case onAnswer | onPending | onCount | onSetTick | onSetEngine | onReassert | onRetry | onBusGrant =>
    intros
    assumption
  all_goals
    intros
    exact State.WaitsMeet.frame ‹_› (by simp)

/-! ### The tick counter -/

/-- What `State.CountersInRange` says of the clock. -/
def State.ClockInRange (s : State) : Prop :=
  (Config.minTickDiv ≤ s.tickDiv ∧ s.tickDiv ≤ Config.maxTickDiv) ∧ s.tickCount < s.tickDiv

theorem State.ClockInRange.frame {s t : State} (h : s.ClockInRange) (div : t.tickDiv = s.tickDiv)
    (count : t.tickCount = s.tickCount) : t.ClockInRange := by
  unfold State.ClockInRange
  rw [div, count]
  exact h

/-- Every update keeps the clock in range. The updates not named touch neither of its counters. -/
theorem clockInRange_keptByUpdates : KeptByUpdates State.ClockInRange := by
  constructor
  case onCount =>
    intro s ⟨div, _⟩ below
    exact ⟨div, below⟩
  case onSetTick =>
    intro n s _ low high
    have positive : 0 < n := (by decide : 0 < Config.minTickDiv).trans_le low
    exact ⟨⟨low, high⟩, positive⟩
  case onReset =>
    intro v q
    exact ⟨⟨(by decide : Config.minTickDiv ≤ Config.resetTickDiv), (by decide : Config.resetTickDiv ≤ Config.maxTickDiv)⟩,
      (by decide : 0 < Config.resetTickDiv)⟩
  case onTick =>
    intro s ⟨div, _⟩
    exact ⟨div, ((by decide : 0 < Config.minTickDiv).trans_le div.1 : 0 < s.tickDiv)⟩
  case onAnswer | onPending | onSetEngine | onReassert | onRetry | onBusGrant =>
    intros
    exact State.ClockInRange.frame ‹_› rfl rfl
  all_goals
    intros
    exact State.ClockInRange.frame ‹_› (by simp) (by simp)

/-! ### All of them -/

theorem countersInRange_iff (s : State) : s.CountersInRange ↔
    s.EngineInRange ∧ s.RoomTimersInRange ∧ s.WaitTimersInRange ∧ s.ClockInRange := by
  constructor
  · rintro ⟨response, retry, limit, burst, owning, retries, timer, room, wait, div, count⟩
    exact ⟨⟨response, retry, limit, burst, owning, retries, timer⟩, room, wait, div, count⟩
  · rintro ⟨⟨response, retry, limit, burst, owning, retries, timer⟩, room, wait, div, count⟩
    exact ⟨response, retry, limit, burst, owning, retries, timer, room, wait, div, count⟩

/-- Settles O59: every update keeps each of the four groups of counters. -/
theorem countersStayInRange : Obligations.CountersStayInRange := by
  intro s t h step
  obtain ⟨engine, room, wait, clock⟩ := (countersInRange_iff s).mp h
  exact (countersInRange_iff t).mpr ⟨engineInRange_keptByUpdates.keepsStep s t engine step,
    roomTimersInRange_keptByUpdates.keepsStep s t room step, waitTimersInRange_keptByUpdates.keepsStep s t wait step,
    clockInRange_keptByUpdates.keepsStep s t clock step⟩

end Sys2Proof.Machine
end

section
/-! What one command does, command by command: exec leaves, but for the answer on the bus and RESULT, what one of the
effects below leaves. `KeptByUpdates` says what any command may do; a statement that names the command, or that holds one
step from its premises alone, goes through these. -/

namespace Sys2Proof.Machine

-- One proof at a time: many at once take more threads than the check allows.
set_option Elab.async false

/-- The records agree in the words that hold a plain value. -/
structure SameWords (r t : StationRec) : Prop where
  staging : t.staging = r.staging
  supOperand : t.supOperand = r.supOperand
  sendTag : t.sendTag = r.sendTag
  ringBase : t.ring.base = r.ring.base
  ringSlots : t.ring.slots = r.ring.slots
  ringIndexAddr : t.ring.indexAddr = r.ring.indexAddr

/-- What a command does to all but the answer and RESULT. -/
inductive Effect : Instr → State → State → Prop
  | nothing {i s} : Effect i s s
  | setting {i s} (a : StationId) (f : StationRec → StationRec) :
      SameRecord (s.st a) (f (s.st a)) → SameWords (s.st a) (f (s.st a)) → Effect i s (s.modSt a f)
  | staging {s} (a : StationId) (k : Fin 64) (w : Word) :
      Effect (.stagingWrite a k w) s (s.modSt a fun r => { r with staging := put r.staging k w })
  | register {s} (a : StationId) (k : ApertureWord) (w : Word) :
      Effect (.registerWrite (.aperture a k) w) s (s.modSt a fun r => r.storePlain k w)
  | fault {i s} (a : StationId) (code : FaultCode) (detail : Word) : Effect i s (recordFault a code detail s)
  | clearFlags {i s} (a : StationId) (v : BitVec 8) :
      Effect i s (s.modSt a fun r => { r with pendingFlags := r.pendingFlags &&& v })
  | attach {s} (a : StationId) : s.bown = false → (s.st a).state = .offline →
      Effect (.attach a) s (s.modSt a StationRec.attached)
  | retire {i s} (a : StationId) : (i = .retire a ∨ ∃ b, i = .retireStation b a) → s.bown = false →
      (s.st a).state = .online → Effect i s (enterQuiescing a s)
  | postNow {i s} (a : StationId) (ch : ChannelId) (len : Fin 128) (pass : Bool) (l : LockId) : s.bown = false →
      (s.st a).state = .online → checkPost a ch len pass l s = none → s.roomQueue = [] →
      s.fits (cellsFor len.val) = true →
      Effect i s (allocate a (postRecord a ch len pass l s) (acceptPost a (postRecord a ch len pass l s) s))
  | postWait {i s} (a : StationId) (ch : ChannelId) (len : Fin 128) (pass : Bool) (l : LockId) : s.bown = false →
      (s.st a).state = .online → checkPost a ch len pass l s = none →
      Effect i s (joinRoomQueue a (postRecord a ch len pass l s) (acceptPost a (postRecord a ch len pass l s) s))
  | endWaiting {i s} (a : StationId) (o : SendOutcome) (sent : Bool) :
      Effect i s (removeWaiting (fun e => e.station == a) o sent s)
  | closeChannel {i s} (ch : ChannelId) : Effect i s (removeWaiting (fun e => e.channel == ch) .closed true
      (s.modChan ch fun e => { e with state := .closed }))
  | take {i s} (a : StationId) (c : ClassId) (d : DescId) (rest : List DescId) : (s.st a).state = .online →
      (s.st a).ring.state = .disabled → (s.st a).readSlot = none → (s.st a).queue c = d :: rest →
      Effect i s (takeHead a c d s)
  | release {i s} (a : StationId) (slot : ReadSlot) : (s.st a).state = .online → (s.st a).readSlot = some slot →
      Effect i s (endMessage .released slot.desc (s.modSt a fun r => { r with readSlot := none }))
  | queueLimit {i s} (a : StationId) (c : ClassId) (limit : Fin 256) :
      Effect i s (s.modSt a fun r => { r with limits := put r.limits c limit })
  | takeLock {i s} (a : StationId) (l : LockId) : (s.st a).state = .online → (s.lock l).state = .free →
      Effect i s (takeLock a l s)
  | joinWaiters {i s} (a : StationId) (l : LockId) : (s.st a).state = .online → Effect i s (joinWaiters a l s)
  | handoff {i s} (a : StationId) (l : LockId) : (s.lock l).state = .held a → Effect i s (handoff l s)
  | revoke {i s} (a : StationId) (l : LockId) : (s.lock l).state = .held a →
      Effect i s (handoff l (recordFault a .lockRevoked (BitVec.ofNat 32 l.val) s))
  | cancelWait {i s} (a : StationId) : Effect i s (leaveWait a .cancelled s)
  | popConfirm {i s} (a : StationId) (e : Confirmation) (rest : List Confirmation) : (s.st a).confirms = e :: rest →
      Effect i s (s.modSt a fun r => { r with confirms := rest })
  | clearOverflow {i s} (a : StationId) : Effect i s (s.modSt a fun r => { r with confirmOverflow := false })
  | setTick {i s} (n : Nat) : Effect i s { s with tickDiv := n, tickCount := 0 }
  | setEngine {i s} (x y z : Nat) : Effect i s { s with responseLimit := x, retryBudget := y, burstLimit := z }
  | openChannel {i s} (ch : ChannelId) (f : Channel → Channel) : Effect i s (s.modChan ch f)
  | ring {i s} (a : StationId) (f : Ring → Ring) : (s.st a).ring.state ≠ .disabled ∨ (s.st a).state = .online →
      (∀ g, (f g).base = g.base ∧ (f g).slots = g.slots ∧ (f g).indexAddr = g.indexAddr) →
      Effect i s (startIfIdle (s.modSt a fun r => { r with ring := f r.ring }))
  | disabling {i s} (a : StationId) : (s.st a).state = .online →
      Effect i s (s.modSt a fun r => { r with ring := { r.ring with state := .disabling } })
  | disableRing {i s} (a : StationId) : (s.st a).state = .online → Effect i s (disableRing a s)
  | acknowledge {i s} (a : StationId) (n : SourceId) : Effect i s (s.modSt a fun r => r.acknowledge n)
  | endService {i s} (a : StationId) : Effect i s (s.modSt a fun r => { r with inService := r.inService.dropLast })
  | reset {s} (v : StationId) : Effect (.reset v) s { State.reset with supervisor := v, pending := s.pending }
  | tick {i s} : Effect i s (tickAll (expireDue s))
  | roomTimer {i s} (a : StationId) : Effect i s (expireRoomWait a s)
  | waitTimer {i s} (a : StationId) : Effect i s (expireLockWait a s)
  | responseTimer {i s} : Effect i s (expireResponse s)
  | copyCompletion {s} (a : StationId) (p : Post) (d : DescId) (m : Message) : (s.st a).send = .copying p d →
      s.msg d = some m → Effect (.copyCompletion a) s (quiesce a (startIfIdle (attemptEnqueue a p d m
        { s with cellStore := copyPayload m.cells m.length (s.st a).staging s.cellStore })))
  | busGrant {i s} (d : Delivery) : s.engine = .busWait d → Effect i s (issueWrite d { s with burst := 0 })
  | reassert {i s} : Effect i s { s with gap := false }
  | nextWrite {i s} (d : Delivery) (c : Cycle) (w : DeliveryWrite) : s.engine = .transfer d c →
      Effect i s (issueWrite { d with next := w } s)
  | complete {i s} (d : Delivery) (c : Cycle) : s.engine = .transfer d c → Effect i s (completeDelivery d s)
  | faultDelivery {i s} (d : Delivery) (c : Cycle) (code : FaultCode) (addr : Word) : s.engine = .transfer d c →
      Effect i s (faultDelivery d code addr s)
  | retry {i s} (d : Delivery) (c : Cycle) : s.engine = .transfer d c →
      Effect i s { s with engine := .busWait { d with retries := d.retries + 1 }, gap := true }

/-- `t` is `u` with an answer on the bus, and with RESULT of an aperture written where the access was a COMMAND write. -/
inductive Answered (u : State) : State → Prop
  | same : Answered u u
  | access (x : Option SlaveAnswer) : Answered u { u with answer := x }
  | command (a : StationId) (result : CommandResult) (x : Option SlaveAnswer) :
      Answered u { u.modSt a (fun r => { r with result }) with answer := x }

/-- `t` is what the command `i` leaves of `s`. -/
def Leaves (i : Instr) (s t : State) : Prop := ∃ u, Effect i s u ∧ Answered u t

theorem Effect.leaves {i : Instr} {s t : State} (h : Effect i s t) : Leaves i s t := ⟨t, h, .same⟩

/-- A COMMAND write leaves what its body leaves, or nothing but an answer. -/
theorem leaves_runCommand {i : Instr} {a : StationId} {command : BitVec 8} {check : State → Option ResultCode}
    {body : State → State × ResultCode} {s : State}
    (h : check s = none → s.bown = false → Effect i s (body s).1) : Leaves i s (runCommand a command check body s) := by
  by_cases hb : s.bown = false
  · cases hc : check s with
    | some code =>
      rw [runCommand_refused hb hc]
      exact ⟨s, .nothing, .command a _ _⟩
    | none =>
      rw [runCommand_eq hb hc]
      exact ⟨_, h hc hb, .command a _ _⟩
  · simp only [Bool.not_eq_false] at hb
    simp only [runCommand, writeAccess, hb, if_true]
    exact ⟨s, .nothing, .access none⟩

/-- A write access leaves what its effect leaves, or nothing but an answer. -/
theorem leaves_writeAccess {i : Instr} {f : State → State} {s : State} (h : s.bown = false → Effect i s (f s)) :
    Leaves i s (writeAccess f s) := by
  by_cases hb : s.bown = false
  · rw [writeAccess_eq hb]
    exact ⟨_, h hb, .access _⟩
  · simp only [Bool.not_eq_false] at hb
    simp only [writeAccess, hb, if_true]
    exact ⟨s, .nothing, .access none⟩

theorem taken_of_checkTake {i : Instr} {a : StationId} {c : ClassId} {s : State} (online : (s.st a).state = .online)
    (h : checkTake a s = none) : Effect i s (takeFrom a c s).1 := by
  unfold checkTake at h
  split at h
  · simp at h
  · split at h
    · simp at h
    · rename_i ring slot
      unfold takeFrom
      split
      · exact .take a c _ _ online (by simpa using ring) (by simpa using slot) ‹_›
      · exact .nothing

theorem Ring.consume_words (g : Ring) (v : Half) :
    (g.consume v).base = g.base ∧ (g.consume v).slots = g.slots ∧ (g.consume v).indexAddr = g.indexAddr := by
  unfold Ring.consume
  split <;> exact ⟨rfl, rfl, rfl⟩

theorem effect_configure {i : Instr} {s : State} (a : StationId) (f : StationRec → StationRec)
    (same : SameRecord (s.st a) (f (s.st a)) := by constructor <;> rfl)
    (words : SameWords (s.st a) (f (s.st a)) := by constructor <;> rfl) : Effect i s (configure a f s) := by
  unfold configure
  split
  · exact .setting a f same words
  · exact .nothing

/-- Every command has one of the effects, and an answer. -/
theorem exec_leaves (i : Instr) (s t : State) (h : exec i s = .next t) : Leaves i s t := by
  cases i with
  | attach a =>
    obtain rfl := Host.Outcome.next.inj h
    refine leaves_runCommand fun _ hb => ?_
    split
    · exact .attach a hb ‹_›
    · exact .nothing
  | retire a =>
    obtain rfl := Host.Outcome.next.inj h
    exact leaves_runCommand fun hc hb => .retire a (.inl rfl) hb (online_of_checkStation hc)
  | retireStation a b =>
    obtain rfl := Host.Outcome.next.inj h
    refine leaves_runCommand fun _ hb => ?_
    split
    · exact .retire b (.inr ⟨a, rfl⟩) hb ‹_›
    · exact .nothing
  | post a ch len pass l =>
    obtain rfl := Host.Outcome.next.inj h
    refine leaves_runCommand fun hc hb => ?_
    unfold judgePost
    split
    · exact .nothing
    · rename_i passes
      dsimp only
      split
      · rename_i room
        exact .postNow a ch len pass l hb (online_of_checkStation hc) passes room.1 room.2
      · split
        · exact .postWait a ch len pass l hb (online_of_checkStation hc) passes
        · exact .nothing
  | cancelPost a =>
    obtain rfl := Host.Outcome.next.inj h
    refine leaves_runCommand fun _ _ => ?_
    split
    · exact .endWaiting a _ _
    · exact .nothing
    · exact .nothing
  | take a c =>
    obtain rfl := Host.Outcome.next.inj h
    refine leaves_runCommand fun hc _ => ?_
    split
    · exact .nothing
    · exact taken_of_checkTake (online_of_checkStation hc) ‹_›
  | takeAny a =>
    obtain rfl := Host.Outcome.next.inj h
    refine leaves_runCommand fun hc _ => ?_
    split
    · exact .nothing
    · split
      · exact taken_of_checkTake (online_of_checkStation hc) ‹_›
      · exact .nothing
  | release a =>
    obtain rfl := Host.Outcome.next.inj h
    refine leaves_runCommand fun hc _ => ?_
    split
    · exact .release a _ (online_of_checkStation hc) ‹_›
    · exact .nothing
  | acquire a l =>
    obtain rfl := Host.Outcome.next.inj h
    refine leaves_runCommand fun hc _ => ?_
    split
    · exact .takeLock a l (online_of_checkStation hc) ‹_›
    · split
      · exact .nothing
      · split
        · exact .nothing
        · exact .joinWaiters a l (online_of_checkStation hc)
  | tryLock a l =>
    obtain rfl := Host.Outcome.next.inj h
    refine leaves_runCommand fun hc _ => ?_
    split
    · exact .takeLock a l (online_of_checkStation hc) ‹_›
    · split <;> exact .nothing
  | releaseLock a l =>
    obtain rfl := Host.Outcome.next.inj h
    refine leaves_runCommand fun _ _ => ?_
    split
    · exact .handoff a l ‹_›
    · split <;> exact .nothing
  | cancelWait a =>
    obtain rfl := Host.Outcome.next.inj h
    refine leaves_runCommand fun _ _ => ?_
    split
    · exact .cancelWait a
    · exact .nothing
  | popConfirm a =>
    obtain rfl := Host.Outcome.next.inj h
    refine leaves_runCommand fun _ _ => ?_
    split
    · exact .popConfirm a _ _ ‹_›
    · exact .nothing
  | setQlimit a c limit =>
    obtain rfl := Host.Outcome.next.inj h
    refine leaves_runCommand fun _ _ => ?_
    split
    · exact .nothing
    · split
      · exact .nothing
      · exact .queueLimit a c limit
  | enableRing a =>
    obtain rfl := Host.Outcome.next.inj h
    refine leaves_runCommand fun hc _ => ?_
    split
    · exact .nothing
    · split
      · exact .nothing
      · exact .ring a Ring.enabled (.inr (online_of_checkStation hc)) fun _ => ⟨rfl, rfl, rfl⟩
  | disableRing a =>
    obtain rfl := Host.Outcome.next.inj h
    refine leaves_runCommand fun hc _ => ?_
    have online := online_of_checkStation hc
    split
    · split
      · exact .disabling a online
      · dsimp only
        exact .disableRing a online
    · dsimp only
      exact .disableRing a online
    · dsimp only
      exact .disableRing a online
    · exact .nothing
    · exact .nothing
  | resumeRing a =>
    obtain rfl := Host.Outcome.next.inj h
    refine leaves_runCommand fun hc _ => ?_
    split
    · exact .ring a (fun g => { g with state := g.byFill }) (.inr (online_of_checkStation hc)) fun _ => ⟨rfl, rfl, rfl⟩
    · exact .nothing
  | openChannel a ch dest c hold confirm pass limit =>
    obtain rfl := Host.Outcome.next.inj h
    refine leaves_runCommand fun _ _ => ?_
    split
    · exact .nothing
    · split
      · exact .nothing
      · split
        · exact .nothing
        · split
          · exact .nothing
          · dsimp only
            exact .openChannel ch _
  | closeChannel a ch =>
    obtain rfl := Host.Outcome.next.inj h
    refine leaves_runCommand fun _ _ => ?_
    split
    · exact .nothing
    · exact .closeChannel ch
  | forceRelease a l =>
    obtain rfl := Host.Outcome.next.inj h
    refine leaves_runCommand fun _ _ => ?_
    split
    · exact .revoke _ l ‹_›
    all_goals exact .nothing
  | setTick a =>
    obtain rfl := Host.Outcome.next.inj h
    refine leaves_runCommand fun _ _ => ?_
    split
    · exact .nothing
    · exact .setTick _
  | setEngine a x y z =>
    obtain rfl := Host.Outcome.next.inj h
    refine leaves_runCommand fun _ _ => ?_
    split
    · exact .nothing
    · split
      · exact .nothing
      · exact .setEngine _ _ _
  | badCommand a code =>
    obtain rfl := Host.Outcome.next.inj h
    exact leaves_runCommand fun _ _ => .nothing
  | stagingWrite a k w =>
    obtain rfl := Host.Outcome.next.inj h
    refine leaves_writeAccess fun _ => ?_
    split
    · exact .staging a k w
    · exact .fault _ _ _
  | ringConsumed a w =>
    obtain rfl := Host.Outcome.next.inj h
    refine leaves_writeAccess fun _ => ?_
    dsimp only
    split
    · exact .nothing
    · split
      · exact .ring a (fun g => g.consume _) (.inl ‹_›) fun g => g.consume_words _
      · exact .fault _ _ _
  | notifyPending a w =>
    obtain rfl := Host.Outcome.next.inj h
    exact leaves_writeAccess fun _ => .clearFlags a _
  | notifyEnable a w =>
    obtain rfl := Host.Outcome.next.inj h
    exact leaves_writeAccess fun _ => effect_configure a _
  | notifyDisarm a w =>
    obtain rfl := Host.Outcome.next.inj h
    exact leaves_writeAccess fun _ => effect_configure a _
  | notifyLevels a w =>
    obtain rfl := Host.Outcome.next.inj h
    exact leaves_writeAccess fun _ => effect_configure a _
  | vectorBase a w =>
    obtain rfl := Host.Outcome.next.inj h
    exact leaves_writeAccess fun _ => effect_configure a _
  | ack a =>
    obtain rfl := Host.Outcome.next.inj h
    show Leaves _ s (if s.bown then unanswered s else _)
    split
    · exact ⟨s, .nothing, .access none⟩
    · split
      · exact ⟨_, .acknowledge a _, .access _⟩
      · exact ⟨s, .nothing, .access _⟩
  | endService a w =>
    obtain rfl := Host.Outcome.next.inj h
    exact leaves_writeAccess fun _ => .endService a
  | confirmHeadWrite a w =>
    obtain rfl := Host.Outcome.next.inj h
    exact leaves_writeAccess fun _ => .clearOverflow a
  | faultRecordWrite a w =>
    obtain rfl := Host.Outcome.next.inj h
    exact leaves_writeAccess fun _ => .setting a _ (by constructor <;> rfl) (by constructor <;> rfl)
  | waitLimits a w =>
    obtain rfl := Host.Outcome.next.inj h
    refine leaves_writeAccess fun _ => ?_
    split
    · exact .setting a _ (by constructor <;> rfl) (by constructor <;> rfl)
    · exact .nothing
  | registerWrite k w =>
    obtain rfl := Host.Outcome.next.inj h
    refine leaves_writeAccess fun _ => ?_
    split
    · exact .register _ _ w
    · exact .nothing
  | partialOrUnmappedAccess off be write =>
    obtain rfl := Host.Outcome.next.inj h
    show Leaves _ s (if s.bown then unanswered s else _)
    split
    · exact ⟨s, .nothing, .access none⟩
    · split
      · exact ⟨_, .fault _ _ _, .access _⟩
      · exact ⟨s, .nothing, .access _⟩
  | reset v =>
    obtain rfl := Host.Outcome.next.inj h
    exact (Effect.reset v).leaves
  | tick =>
    obtain rfl := Host.Outcome.next.inj h
    exact Effect.tick.leaves
  | roomWaitTimerExpiry a =>
    obtain rfl := Host.Outcome.next.inj h
    exact (Effect.roomTimer a).leaves
  | waitTimerExpiry a =>
    obtain rfl := Host.Outcome.next.inj h
    exact (Effect.waitTimer a).leaves
  | responseLimitExpiry =>
    obtain rfl := Host.Outcome.next.inj h
    exact Effect.responseTimer.leaves
  | copyCompletion a =>
    simp only [Machine.exec, execCopyCompletion] at h
    split at h
    · split at h
      · obtain rfl := Host.Outcome.next.inj h
        exact (Effect.copyCompletion a _ _ _ ‹_› ‹_›).leaves
      · obtain rfl := Host.Outcome.next.inj h
        exact Effect.nothing.leaves
    · obtain rfl := Host.Outcome.next.inj h
      exact Effect.nothing.leaves
  | busGrant =>
    simp only [Machine.exec, execBusGrant] at h
    split at h
    · split at h
      · obtain rfl := Host.Outcome.next.inj h
        exact Effect.nothing.leaves
      · obtain rfl := Host.Outcome.next.inj h
        exact (Effect.busGrant _ ‹_›).leaves
    · obtain rfl := Host.Outcome.next.inj h
      exact Effect.nothing.leaves
  | brqReassert =>
    obtain rfl := Host.Outcome.next.inj h
    exact Effect.reassert.leaves
  | respComplete =>
    simp only [Machine.exec, execRespComplete] at h
    split at h
    · split at h
      · obtain rfl := Host.Outcome.next.inj h
        exact (Effect.nextWrite _ _ _ ‹_›).leaves
      · obtain rfl := Host.Outcome.next.inj h
        exact (Effect.complete _ _ ‹_›).leaves
    · obtain rfl := Host.Outcome.next.inj h
      exact Effect.nothing.leaves
  | respRetry =>
    simp only [Machine.exec, execRespRetry] at h
    split at h
    · split at h
      · obtain rfl := Host.Outcome.next.inj h
        exact (Effect.faultDelivery _ _ _ _ ‹_›).leaves
      · obtain rfl := Host.Outcome.next.inj h
        exact (Effect.retry _ _ ‹_›).leaves
    · obtain rfl := Host.Outcome.next.inj h
      exact Effect.nothing.leaves
  | respFault =>
    simp only [Machine.exec, execRespFault] at h
    split at h
    · obtain rfl := Host.Outcome.next.inj h
      exact (Effect.faultDelivery _ _ _ _ ‹_›).leaves
    · obtain rfl := Host.Outcome.next.inj h
      exact Effect.nothing.leaves

end Sys2Proof.Machine
end

section
/-! What a step leaves alone (spec chapter 9, section 9.1): the queue of commands, the supervisor number and a station's
plain words; and the state of every station but the one its command moves. -/

namespace Sys2Proof.Machine

-- One proof at a time: many at once take more threads than the check allows.
set_option Elab.async false

/-- Settles O1: a queue with a command in front takes that arm of the step. -/
theorem stepRunsTheFrontCommand : Obligations.StepRunsTheFrontCommand := by
  intro c rest s front
  unfold Machine.step
  rw [front]

/-- What an answer and a RESULT keep, `Answered` keeps. -/
theorem Answered.keeps {P : State → Prop} {u t : State} (h : Answered u t)
    (answer : ∀ s x, P s → P { s with answer := x })
    (result : ∀ s a x, P s → P (s.modSt a fun r => { r with result := x })) (hu : P u) : P t := by
  cases h with
  | same => exact hu
  | access x => exact answer u x hu
  | command a x y => exact answer _ y (result u a x hu)

/-! ### Plain words -/

/-- `t` has the queue and the supervisor number of `s`, and each station its plain words. -/
structure KeepsWords (s t : State) : Prop where
  pending : t.pending = s.pending
  supervisor : t.supervisor = s.supervisor
  words : ∀ b, SameWords (s.st b) (t.st b)

theorem SameWords.refl (r : StationRec) : SameWords r r := ⟨rfl, rfl, rfl, rfl, rfl, rfl⟩

theorem SameWords.trans {r t u : StationRec} (h : SameWords r t) (k : SameWords t u) : SameWords r u :=
  ⟨k.staging.trans h.staging, k.supOperand.trans h.supOperand, k.sendTag.trans h.sendTag, k.ringBase.trans h.ringBase,
    k.ringSlots.trans h.ringSlots, k.ringIndexAddr.trans h.ringIndexAddr⟩

theorem KeepsWords.refl (s : State) : KeepsWords s s := ⟨rfl, rfl, fun _ => .refl _⟩

theorem KeepsWords.trans {s t u : State} (h : KeepsWords s t) (k : KeepsWords t u) : KeepsWords s u :=
  ⟨k.pending.trans h.pending, k.supervisor.trans h.supervisor, fun b => (h.words b).trans (k.words b)⟩

/-- An operation that leaves the rings alone. -/
theorem KeepsWords.of_rings {s t : State} (pending : t.pending = s.pending) (supervisor : t.supervisor = s.supervisor)
    (words : ∀ b, (t.st b).staging = (s.st b).staging ∧ (t.st b).supOperand = (s.st b).supOperand ∧
      (t.st b).sendTag = (s.st b).sendTag ∧ (t.st b).ring = (s.st b).ring) : KeepsWords s t :=
  ⟨pending, supervisor, fun b => by
    obtain ⟨staging, supOperand, sendTag, ring⟩ := words b
    exact ⟨staging, supOperand, sendTag, by rw [ring], by rw [ring], by rw [ring]⟩⟩

theorem KeepsWords.modSt (s : State) (a : StationId) (f : StationRec → StationRec)
    (own : ∀ r, SameWords r (f r) := by intro r; constructor <;> rfl) : KeepsWords s (s.modSt a f) :=
  ⟨rfl, rfl, fun b => by
    by_cases e : b = a
    · subst e; simpa using own (s.st b)
    · simpa [e] using SameWords.refl (s.st b)⟩

theorem KeepsWords.modSt_at (s : State) (a : StationId) (f : StationRec → StationRec)
    (own : SameWords (s.st a) (f (s.st a))) : KeepsWords s (s.modSt a f) :=
  ⟨rfl, rfl, fun b => by
    by_cases e : b = a
    · subst e; simpa using own
    · simpa [e] using SameWords.refl (s.st b)⟩

theorem startIfIdle_keepsWords (s : State) : KeepsWords s (startIfIdle s) := .of_rings (by simp) (by simp) (by simp)

theorem releaseToIdle_keepsWords (s : State) : KeepsWords s (releaseToIdle s) := .of_rings (by simp) (by simp) (by simp)

theorem advanceBurst_keepsWords (s : State) : KeepsWords s (advanceBurst s) := .of_rings (by simp) (by simp) (by simp)

theorem disableRing_keepsWords (a : StationId) (s : State) : KeepsWords s (disableRing a s) := by
  rw [disableRing_eq]
  exact .modSt s a _

theorem faultDelivery_keepsWords (d : Delivery) (code : FaultCode) (addr : Word) (s : State) :
    KeepsWords s (faultDelivery d code addr s) := by
  have queued : KeepsWords s (setMessageState d.desc .queued s) := .of_rings (by simp) (by simp) (by simp)
  unfold faultDelivery
  dsimp only
  refine KeepsWords.trans ?_ (releaseToIdle_keepsWords _)
  rw [recordFault_eq]
  refine KeepsWords.trans ?_ (.modSt _ d.station _)
  split
  · exact queued.trans (disableRing_keepsWords _ _)
  · exact queued.trans (.modSt _ d.station _)

theorem abandonDelivery_keepsWords (a : StationId) (s : State) : KeepsWords s (abandonDelivery a s) := by
  unfold abandonDelivery
  split
  · rename_i d _
    split
    · have queued : KeepsWords s (setMessageState d.desc .queued s) := .of_rings (by simp) (by simp) (by simp)
      have off := KeepsWords.modSt (setMessageState d.desc .queued s) a
        (fun r => if r.ring.state = .disabling then { r with ring := { r.ring with state := .disabled } } else r)
        fun r => by split <;> constructor <;> rfl
      exact (queued.trans off).trans (releaseToIdle_keepsWords _)
    · exact .refl s
  · exact .refl s

theorem discardAll_keepsWords (ds : List DescId) (s : State) : KeepsWords s (discardAll ds s) :=
  .of_rings (by simp) (by simp) (by simp)

theorem releaseHoldings_keepsWords (a : StationId) (s : State) : KeepsWords s (releaseHoldings a s) :=
  .of_rings (by simp) (by simp) (by simp)

theorem enterOffline_keepsWords (a : StationId) (s : State) : KeepsWords s (enterOffline a s) := by
  have emptied := (KeepsWords.modSt s a fun r => { r with state := .offline }).trans
    (.modSt _ a fun r => { r with queues := Vector.replicate 4 [], readSlot := none })
  unfold enterOffline purge
  exact ((emptied.trans (discardAll_keepsWords _ _)).trans (releaseHoldings_keepsWords a _)).trans (.modSt _ a _)

theorem quiesce_keepsWords (a : StationId) (s : State) : KeepsWords s (quiesce a s) := by
  unfold quiesce
  split
  · exact enterOffline_keepsWords a s
  · exact .refl s

theorem enterQuiescing_keepsWords (a : StationId) (s : State) : KeepsWords s (enterQuiescing a s) := by
  have quiescing := KeepsWords.modSt s a fun r => { r with state := .quiescing }
  have left : KeepsWords s (leaveWait a .cancelled (removeWaiting (fun e => e.station == a) .cancelled false
      (s.modSt a fun r => { r with state := .quiescing }))) :=
    quiescing.trans (.of_rings (by simp) (by simp) (by simp))
  unfold enterQuiescing
  exact ((left.trans (abandonDelivery_keepsWords a _)).trans (.modSt _ a _)).trans (quiesce_keepsWords a _)

theorem settleRing_keepsWords (a : StationId) (s : State) : KeepsWords s (settleRing a s) := by
  unfold settleRing
  split
  · exact .modSt s a _
  · exact disableRing_keepsWords a s
  · exact .refl s

theorem completeDelivery_keepsWords (d : Delivery) (s : State) : KeepsWords s (completeDelivery d s) := by
  have advanced : KeepsWords s (advanceRing d s) := by
    unfold advanceRing
    exact .modSt s d.station _
  have ended : KeepsWords s (setSource d.station (srcArrive d.cls) (endMessage .delivered d.desc (advanceRing d s))) :=
    advanced.trans (.of_rings (by simp) (by simp) (by simp))
  unfold completeDelivery
  exact (ended.trans (settleRing_keepsWords _ _)).trans (advanceBurst_keepsWords _)

theorem expireResponse_keepsWords (s : State) : KeepsWords s (expireResponse s) := by
  unfold expireResponse
  split
  · split
    · exact faultDelivery_keepsWords _ _ _ s
    · exact .refl s
  · exact .refl s

theorem expireDue_keepsWords (s : State) : KeepsWords s (expireDue s) := by
  unfold expireDue
  refine KeepsWords.trans ?_ (expireResponse_keepsWords _)
  exact .of_rings (by simp) (by simp) (by simp)

theorem tickAll_keepsWords (s : State) : KeepsWords s (tickAll s) :=
  .of_rings rfl rfl fun b => by simp [tickAll, State.st, StationRec.ticked]

/-- The commands that write a plain word. -/
theorem Effect.keepsWords {i : Instr} {s t : State} (h : Effect i s t) : KeepsWords s t ∨
    (∃ a k w, i = .stagingWrite a k w ∧ t = s.modSt a fun r => { r with staging := put r.staging k w }) ∨
    (∃ a k w, i = .registerWrite (.aperture a k) w ∧ t = s.modSt a fun r => r.storePlain k w) ∨
    ∃ v, i = .reset v ∧ t.pending = s.pending := by
  cases h
  case staging a k w => exact .inr (.inl ⟨a, k, w, rfl, rfl⟩)
  case register a k w => exact .inr (.inr (.inl ⟨a, k, w, rfl, rfl⟩))
  case reset v => exact .inr (.inr (.inr ⟨v, rfl, rfl⟩))
  all_goals refine .inl ?_
  case nothing => exact .refl s
  case setting a f _ words => exact .modSt_at s a f words
  case retire => exact enterQuiescing_keepsWords _ s
  case ring a f words _ =>
    exact (KeepsWords.modSt s a (fun r => { r with ring := f r.ring }) fun r =>
      ⟨rfl, rfl, rfl, (words r.ring).1, (words r.ring).2.1, (words r.ring).2.2⟩).trans (startIfIdle_keepsWords _)
  case disableRing => exact disableRing_keepsWords _ s
  case tick => exact (expireDue_keepsWords s).trans (tickAll_keepsWords _)
  case responseTimer => exact expireResponse_keepsWords s
  case complete => exact completeDelivery_keepsWords _ s
  case faultDelivery => exact faultDelivery_keepsWords _ _ _ s
  case copyCompletion =>
    refine KeepsWords.trans ?_ (quiesce_keepsWords _ _)
    exact .of_rings (by simp) (by simp) fun b => by simp
  case release a slot _ _ =>
    exact (KeepsWords.modSt s a fun r => { r with readSlot := none }).trans (.of_rings (by simp) (by simp) (by simp))
  case clearFlags | attach | queueLimit | popConfirm | clearOverflow | disabling | acknowledge | endService =>
    exact .modSt s _ _
  case setTick | setEngine | openChannel | reassert | retry => exact .of_rings rfl rfl fun _ => ⟨rfl, rfl, rfl, rfl⟩
  case busGrant => exact .of_rings rfl rfl fun _ => ⟨rfl, rfl, rfl, rfl⟩
  all_goals exact .of_rings (by simp) (by simp) (by simp)

theorem Answered.keepsWords {u t : State} (h : Answered u t) : KeepsWords u t :=
  h.keeps (P := KeepsWords u) (fun _ _ k => ⟨k.pending, k.supervisor, k.words⟩)
    (fun s a x k => k.trans (.modSt s a fun r => { r with result := x })) (.refl u)

section
variable {r : StationRec} {k : ApertureWord} {w : Word}

theorem StationRec.storePlain_staging (r : StationRec) (k : ApertureWord) (w : Word) :
    (r.storePlain k w).staging = r.staging := by
  cases k <;> rfl

theorem StationRec.storePlain_supOperand (other : k ≠ .supOperand) : (r.storePlain k w).supOperand = r.supOperand := by
  unfold StationRec.storePlain
  split <;> simp at other ⊢

theorem StationRec.storePlain_sendTag (other : k ≠ .sendTag) : (r.storePlain k w).sendTag = r.sendTag := by
  unfold StationRec.storePlain
  split <;> simp at other ⊢

theorem StationRec.storePlain_ringBase (other : k ≠ .ringBase) : (r.storePlain k w).ring.base = r.ring.base := by
  unfold StationRec.storePlain
  split <;> simp at other ⊢

theorem StationRec.storePlain_ringSlots (other : k ≠ .ringSlots) : (r.storePlain k w).ring.slots = r.ring.slots := by
  unfold StationRec.storePlain
  split <;> simp at other ⊢

theorem StationRec.storePlain_ringIndexAddr (other : k ≠ .ringIndexAddr) :
    (r.storePlain k w).ring.indexAddr = r.ring.indexAddr := by
  unfold StationRec.storePlain
  split <;> simp at other ⊢
end

/-- A command whose condition holds or not answers next (log entry 20). -/
theorem exec_next (i : Instr) (s : State) : ∃ t, exec i s = .next t := by
  cases i with
  | copyCompletion a =>
    simp only [Machine.exec, execCopyCompletion]
    split
    · split
      · exact ⟨_, rfl⟩
      · exact ⟨_, rfl⟩
    · exact ⟨_, rfl⟩
  | busGrant =>
    simp only [Machine.exec, execBusGrant]
    split
    · split
      · exact ⟨_, rfl⟩
      · exact ⟨_, rfl⟩
    · exact ⟨_, rfl⟩
  | respComplete =>
    simp only [Machine.exec, execRespComplete]
    split
    · split
      · exact ⟨_, rfl⟩
      · exact ⟨_, rfl⟩
    · exact ⟨_, rfl⟩
  | respRetry =>
    simp only [Machine.exec, execRespRetry]
    split
    · split
      · exact ⟨_, rfl⟩
      · exact ⟨_, rfl⟩
    · exact ⟨_, rfl⟩
  | respFault =>
    simp only [Machine.exec, execRespFault]
    split
    · exact ⟨_, rfl⟩
    · exact ⟨_, rfl⟩
  | _ => exact ⟨_, rfl⟩

/-- Settles O3: an effect that is no staging write, register write or RESET keeps every plain word; the write of one
station's word keeps the others. -/
theorem everyCommandAnswersNext : Obligations.EveryCommandAnswersNext := by
  intro i s
  obtain ⟨t, next⟩ := exec_next i s
  obtain ⟨u, effect, answered⟩ := exec_leaves i s t next
  obtain ⟨pending, supervisor, words⟩ := answered.keepsWords
  refine ⟨t, next, ?_⟩
  rcases effect.keepsWords with kept | ⟨a, k, w, rfl, rfl⟩ | ⟨a, k, w, rfl, rfl⟩ | ⟨v, rfl, queue⟩
  · refine ⟨pending.trans kept.pending, fun _ => ⟨supervisor.trans kept.supervisor, fun b => ?_⟩⟩
    obtain ⟨h1, h2, h3, h4, h5, h6⟩ := (kept.words b).trans (words b)
    exact ⟨fun _ => h1, fun _ => h2, fun _ => h3, fun _ => h4, fun _ => h5, fun _ => h6⟩
  · refine ⟨pending, fun _ => ⟨supervisor, fun b => ?_⟩⟩
    obtain ⟨h1, h2, h3, h4, h5, h6⟩ := words b
    by_cases e : b = a
    · subst e
      simp only [State.st_modSt_same] at h1 h2 h3 h4 h5 h6
      exact ⟨fun other => absurd rfl (other k w), fun _ => h2, fun _ => h3, fun _ => h4, fun _ => h5, fun _ => h6⟩
    · rw [State.st_modSt_ne _ _ e] at h1 h2 h3 h4 h5 h6
      exact ⟨fun _ => h1, fun _ => h2, fun _ => h3, fun _ => h4, fun _ => h5, fun _ => h6⟩
  · refine ⟨pending, fun _ => ⟨supervisor, fun b => ?_⟩⟩
    obtain ⟨h1, h2, h3, h4, h5, h6⟩ := words b
    by_cases e : b = a
    · subst e
      simp only [State.st_modSt_same] at h1 h2 h3 h4 h5 h6
      have another {j : ApertureWord} (other : ∀ v, Instr.registerWrite (.aperture b k) w ≠ .registerWrite (.aperture b j) v) :
          k ≠ j := fun same => other w (by rw [same])
      exact ⟨fun _ => h1.trans (StationRec.storePlain_staging ..),
        fun other => h2.trans (StationRec.storePlain_supOperand (another other)),
        fun other => h3.trans (StationRec.storePlain_sendTag (another other)),
        fun other => h4.trans (StationRec.storePlain_ringBase (another other)),
        fun other => h5.trans (StationRec.storePlain_ringSlots (another other)),
        fun other => h6.trans (StationRec.storePlain_ringIndexAddr (another other))⟩
    · rw [State.st_modSt_ne _ _ e] at h1 h2 h3 h4 h5 h6
      exact ⟨fun _ => h1, fun _ => h2, fun _ => h3, fun _ => h4, fun _ => h5, fun _ => h6⟩
  · exact ⟨pending.trans queue, fun other => absurd rfl (other v)⟩

/-! ### Station states -/

/-- Each station has in `t` the state it has in `s`. -/
def SameStates (s t : State) : Prop := ∀ b, (t.st b).state = (s.st b).state

theorem SameStates.modSt (s : State) (a : StationId) (f : StationRec → StationRec)
    (own : (f (s.st a)).state = (s.st a).state) : SameStates s (s.modSt a f) := fun b => by
  by_cases e : b = a
  · subst e; simpa using own
  · simp [e]

theorem SameStates.trans {s t u : State} (h : SameStates s t) (k : SameStates t u) : SameStates s u := fun b =>
  (k b).trans (h b)

theorem enterOffline_state (a b : StationId) (s : State) :
    ((enterOffline a s).st b).state = if b = a then .offline else (s.st b).state := by
  unfold enterOffline
  by_cases e : b = a
  · subst e; simp
  · simp [e]

/-- A quiescence makes the station OFFLINE from QUIESCING (Table 9-2), or has not come. -/
theorem quiesce_state (a b : StationId) (s : State) : ((quiesce a s).st b).state = (s.st b).state ∨
    b = a ∧ (s.st a).state = .quiescing ∧ ((quiesce a s).st b).state = .offline := by
  unfold quiesce
  split
  · rename_i quiet
    rw [enterOffline_state]
    by_cases e : b = a
    · exact .inr ⟨e, quiet.1, if_pos e⟩
    · exact .inl (if_neg e)
  · exact .inl rfl

theorem enterQuiescing_state_other {a b : StationId} (ne : b ≠ a) (s : State) :
    ((enterQuiescing a s).st b).state = (s.st b).state := by
  unfold enterQuiescing
  rcases quiesce_state a b _ with same | ⟨eq, -⟩
  · rw [same]
    simp [ne]
  · exact absurd eq ne

/-- The transitions of Table 9-2, effect by effect. -/
theorem Effect.state {i : Instr} {s t : State} (h : Effect i s t) : SameStates s t ∨
    (∃ a, i = .attach a ∧ (s.st a).state = .offline ∧ t = s.modSt a StationRec.attached) ∨
    (∃ a, (i = .retire a ∨ ∃ b, i = .retireStation b a) ∧ (s.st a).state = .online ∧ t = enterQuiescing a s) ∨
    (∃ a u, i = .copyCompletion a ∧ SameStates s u ∧ t = quiesce a u) ∨
    ∃ v, i = .reset v ∧ ∀ b, (t.st b).state = .offline := by
  cases h
  case attach a _ offline => exact .inr (.inl ⟨a, rfl, offline, rfl⟩)
  case retire a command _ online => exact .inr (.inr (.inl ⟨a, command, online, rfl⟩))
  case copyCompletion a p d m _ _ =>
    exact .inr (.inr (.inr (.inl ⟨a, _, rfl, fun b => by simp, rfl⟩)))
  case reset v => exact .inr (.inr (.inr (.inr ⟨v, rfl, fun b => by simp [State.st, State.reset, StationRec.reset]⟩)))
  all_goals refine .inl ?_
  case nothing => exact fun _ => rfl
  case setting a f same _ => exact .modSt s a f same.state
  case register a k w => exact .modSt s a _ (by cases k <;> rfl)
  case staging | clearFlags | queueLimit | popConfirm | clearOverflow | disabling | acknowledge | endService =>
    exact .modSt s _ _ rfl
  case release a slot _ _ => exact (SameStates.modSt s a (fun r => { r with readSlot := none }) rfl).trans fun b => by simp
  case ring a f _ _ => exact (SameStates.modSt s a (fun r => { r with ring := f r.ring }) rfl).trans fun b => by simp
  case setTick | setEngine | openChannel | reassert | retry | busGrant => exact fun _ => rfl
  case tick =>
    intro b
    have ticked : ((tickAll (expireDue s)).st b).state = ((expireDue s).st b).state := by
      simp [tickAll, State.st, StationRec.ticked]
    simpa using ticked
  all_goals exact fun b => by simp

/-- Settles O4: each effect but four keeps every station's state, and these four move one station as Table 9-2 says. -/
theorem stationStateTransitions : Obligations.StationStateTransitions := by
  intro i s t a next changed
  obtain ⟨u, effect, answered⟩ := exec_leaves i s t next
  have kept : SameStates u t := answered.keeps (P := SameStates u) (fun _ _ h => h)
    (fun v b x h => h.trans (SameStates.modSt v b (fun r => { r with result := x }) rfl)) fun _ => rfl
  rw [kept a] at changed ⊢
  rcases effect.state with same | ⟨b, rfl, offline, rfl⟩ | ⟨b, command, online, rfl⟩ | ⟨b, v, rfl, same, rfl⟩ |
    ⟨v, rfl, offline⟩
  · exact absurd (same a) changed
  · by_cases e : a = b
    · subst e
      exact .inl ⟨rfl, offline, by simp [StationRec.attached]⟩
    · exact absurd (by simp [e]) changed
  · by_cases e : a = b
    · subst e
      exact .inr (.inl ⟨command, online⟩)
    · exact absurd (enterQuiescing_state_other e s) changed
  · rcases quiesce_state b a v with unmoved | ⟨rfl, quiescing, offline⟩
    · exact absurd (unmoved.trans (same a)) changed
    · exact .inr (.inr (.inl ⟨rfl, (same a).symm.trans quiescing, offline⟩))
  · exact .inr (.inr (.inr ⟨⟨v, rfl⟩, offline a⟩))

end Sys2Proof.Machine
end

section
/-! The store as a step invariant (R1, R2): every cell is free or in one record, every descriptor free or with a record. -/

namespace Sys2Proof.Machine

-- One proof at a time: many at once take more threads than the check allows.
set_option Elab.async false

/-! ### The cells held -/

/-- The cells of the message of descriptor `d`; none while it is free. -/
def State.cellsOf (s : State) (d : DescId) : List CellId := (s.readMsg (·.cells) d).getD []

theorem State.heldCells_eq (s : State) : s.heldCells = (List.finRange 256).flatMap s.cellsOf := rfl

/-- Two functions that agree on a list but at `x` differ there alone in what they map the list to. -/
theorem flatMap_update_perm {α β : Type} [DecidableEq α] {f g : α → List β} {x : α} {l : List α} (nodup : l.Nodup)
    (mem : x ∈ l) (others : ∀ y, y ≠ x → f y = g y) :
    ∃ rest, (l.flatMap f).Perm (f x ++ rest) ∧ (l.flatMap g).Perm (g x ++ rest) := by
  have away : (l.erase x).flatMap f = (l.erase x).flatMap g :=
    List.flatMap_congr fun y hy => others y ((List.Nodup.mem_erase_iff nodup).mp hy).1
  refine ⟨(l.erase x).flatMap f, (List.perm_cons_erase mem).flatMap_right f, ?_⟩
  rw [away]
  exact (List.perm_cons_erase mem).flatMap_right g

/-- The held cells after one record has changed. -/
theorem State.heldCells_update {s t : State} {d : DescId} (others : ∀ e, e ≠ d → t.msg e = s.msg e) :
    ∃ rest, s.heldCells.Perm (s.cellsOf d ++ rest) ∧ t.heldCells.Perm (t.cellsOf d ++ rest) :=
  flatMap_update_perm (List.nodup_finRange 256) (List.mem_finRange d) fun e ne => by
    rw [others e ne]

/-- A state with the same free lists and the same cells in every record. -/
structure SameStore (s t : State) : Prop where
  freeCells : t.freeCells = s.freeCells
  freeDescs : t.freeDescs = s.freeDescs
  cells : ∀ d, t.readMsg (·.cells) d = s.readMsg (·.cells) d

theorem SameStore.of_fields {s t : State} (cells : t.freeCells = s.freeCells) (descs : t.freeDescs = s.freeDescs)
    (messages : t.messages = s.messages) : SameStore s t := ⟨cells, descs, State.readMsg_of_messages messages⟩

theorem State.StoreConserved.frame {s t : State} (h : s.StoreConserved) (same : SameStore s t) : t.StoreConserved := by
  obtain ⟨freeCells, freeDescs, cells⟩ := same
  obtain ⟨perm, nodup, free⟩ := h
  refine ⟨?_, freeDescs ▸ nodup, fun d => ?_⟩
  · rw [State.heldCells_eq, freeCells, show t.cellsOf = s.cellsOf from funext fun d => by simp [State.cellsOf, cells]]
    exact perm
  · have used : t.msg d = none ↔ s.msg d = none := by
      have same := cells d
      unfold State.readMsg at same
      rw [← Option.map_eq_none_iff, same, Option.map_eq_none_iff]
    rw [freeDescs, used]
    exact free d

theorem State.StoreConserved.descsFree {s : State} (h : s.StoreConserved) : s.DescsFree := h.2

/-- Cells leave the head of the free list for the record that a free descriptor gets (R10). -/
theorem State.StoreConserved.allocate {s : State} (h : s.StoreConserved) (a : StationId) (p : Post) :
    (allocate a p s).StoreConserved := by
  refine ⟨?_, h.descsFree.allocate a p⟩
  cases free : s.freeDescs with
  | nil => rw [Machine.allocate, free]; exact h.1
  | cons d rest =>
    have unused : s.msg d = none := (h.descsFree.2 d).mp (by simp [free])
    obtain ⟨held, before, after⟩ := State.heldCells_update (s := s) (t := Machine.allocate a p s) (d := d)
      fun e ne => by simp [allocate_eq free, State.msg, ne]
    have none_before : s.cellsOf d = [] := by simp [State.cellsOf, State.readMsg, unused]
    have taken : (Machine.allocate a p s).cellsOf d = s.freeCells.take p.cellsNeeded := by
      simp [allocate_eq free, State.cellsOf, State.readMsg, State.msg]
    have left : (Machine.allocate a p s).freeCells = s.freeCells.drop p.cellsNeeded := by simp [allocate_eq free]
    rw [none_before, List.nil_append] at before
    rw [taken] at after
    rw [left]
    calc s.freeCells.drop p.cellsNeeded ++ (Machine.allocate a p s).heldCells
      _ |>.Perm (s.freeCells.drop p.cellsNeeded ++ (s.freeCells.take p.cellsNeeded ++ held)) := after.append_left _
      _ |>.Perm (s.freeCells.take p.cellsNeeded ++ s.freeCells.drop p.cellsNeeded ++ held) := by
        rw [← List.append_assoc]
        exact List.perm_append_comm.append_right held
      _ |>.Perm (s.freeCells ++ s.heldCells) := by
        rw [List.take_append_drop]
        exact before.symm.append_left _
      _ |>.Perm (List.finRange 1024) := h.1

/-- The cells of a freed record go to the tail of the free list (R11). -/
theorem State.StoreConserved.freed {s : State} (h : s.StoreConserved) {d : DescId} {m : Message} (hm : s.msg d = some m) :
    (s.freed d m).StoreConserved := by
  refine ⟨?_, h.descsFree.freed (by simp [hm])⟩
  obtain ⟨held, before, after⟩ := State.heldCells_update (s := s) (t := s.freed d m) (d := d) fun e ne => by simp [ne]
  have own : s.cellsOf d = m.cells := by simp [State.cellsOf, State.readMsg, hm]
  have gone : (s.freed d m).cellsOf d = [] := by simp [State.cellsOf, State.readMsg]
  have left : (s.freed d m).freeCells = s.freeCells ++ m.cells := by simp
  rw [own] at before
  rw [gone, List.nil_append] at after
  rw [left, List.append_assoc]
  exact ((after.append_left m.cells).trans before.symm).append_left s.freeCells |>.trans h.1

/-- The store is conserved whatever waits. -/
theorem lawOfWaits_storeConserved : LawOfWaits fun _ s => s.StoreConserved where
  perm _ h := h
  onQueue _ h := h
  onGrant {e _ s} h _ := by
    unfold grant
    split
    · exact h.allocate _ _
    · exact h
  onEnd o sent h := h.frame (.of_fields (by simp) (by simp) (by simp))

theorem State.StoreConserved.examine {s : State} (h : s.StoreConserved) : (examine s).StoreConserved :=
  lawOfWaits_storeConserved.examine h

theorem State.StoreConserved.endMessage {s : State} (h : s.StoreConserved) (o : EndOutcome) (d : DescId) :
    (endMessage o d s).StoreConserved := by
  cases hm : s.msg d with
  | none => rwa [endMessage_of_none hm]
  | some m =>
    rw [endMessage_of_msg hm]
    have settled : (confirmEnd o m (disposeLock o m s)).StoreConserved := h.frame (.of_fields (by simp) (by simp) (by simp))
    exact (settled.freed (by simpa using hm)).examine

theorem State.StoreConserved.endFailedEnqueue {s : State} (h : s.StoreConserved) (d : DescId) :
    (endFailedEnqueue d s).StoreConserved := by
  cases hm : s.msg d with
  | none => rwa [Machine.endFailedEnqueue, hm]
  | some m =>
    rw [endFailedEnqueue_of_msg hm]
    have returned : (setLockState m.carriedLock (.held m.source) s).StoreConserved :=
      h.frame (.of_fields (by simp) (by simp) (by simp))
    exact (returned.freed (by simpa using hm)).examine

theorem State.StoreConserved.modSt {s : State} (h : s.StoreConserved) {a : StationId} {f : StationRec → StationRec} :
    (s.modSt a f).StoreConserved := h.frame (.of_fields rfl rfl rfl)

theorem State.StoreConserved.startIfIdle {s : State} (h : s.StoreConserved) : (startIfIdle s).StoreConserved :=
  h.frame ⟨by simp, by simp, startIfIdle_readMsg (fun _ _ => rfl) s⟩

theorem State.StoreConserved.quiesce {s : State} (h : s.StoreConserved) (a : StationId) :
    (quiesce a s).StoreConserved := by
  have offline : (s.modSt a fun r => { r with state := .offline }).StoreConserved := h.modSt
  have purged : (purge a (s.modSt a fun r => { r with state := .offline })).StoreConserved := by
    unfold purge discardAll
    exact foldl_keeps (P := State.StoreConserved) (fun _ d ht => ht.endMessage .discarded d) _ _ offline.modSt
  unfold Machine.quiesce
  split
  · unfold enterOffline
    exact State.StoreConserved.modSt (purged.frame (.of_fields (by simp) (by simp) (by simp)))
  · exact h

theorem withdrawn_keeps_storeConserved {s : State} (h : s.StoreConserved) (a : StationId) :
    (s.withdrawn a).StoreConserved := by
  have quiescing : (s.modSt a fun r => { r with state := .quiescing }).StoreConserved := h.modSt
  have left : (s.leaving a).StoreConserved :=
    State.StoreConserved.frame (lawOfWaits_storeConserved.removeWaiting quiescing (fun e => e.station == a) .cancelled false)
      (.of_fields (by simp [State.leaving]) (by simp [State.leaving]) (by simp [State.leaving]))
  have abandoned : (abandonDelivery a (s.leaving a)).StoreConserved :=
    left.frame ⟨by simp, by simp, abandonDelivery_readMsg (fun _ _ => rfl) a _⟩
  exact abandoned.modSt

theorem enterQuiescing_keeps_storeConserved {s : State} (h : s.StoreConserved) (a : StationId) :
    (enterQuiescing a s).StoreConserved := by
  rw [enterQuiescing_eq]
  exact State.StoreConserved.quiesce (withdrawn_keeps_storeConserved h a) a

theorem attemptEnqueue_keeps_storeConserved {s : State} (h : s.StoreConserved) (a : StationId) (p : Post) {d : DescId}
    {m : Message} (hm : s.msg d = some m) : (attemptEnqueue a p d m s).StoreConserved := by
  unfold attemptEnqueue
  split
  · refine h.frame ⟨by simp, by simp, ?_⟩
    exact readMsg_of_put hm (m' := { m with state := .queued }) (by simp [enqueue_messages]) rfl
  · exact (h.endFailedEnqueue d).frame (.of_fields (by simp) (by simp) (by simp))

theorem reset_storeConserved : State.reset.StoreConserved := by
  have unused : ∀ d, State.reset.msg d = none := fun d => by simp [State.msg, State.reset]
  refine ⟨?_, ?_, fun d => ?_⟩
  · have none_held : State.reset.heldCells = [] := by simp only [State.heldCells, unused]; simp
    rw [none_held, List.append_nil, reset_freeCells]
  · rw [reset_freeDescs]
    exact List.nodup_finRange 256
  · simp [reset_freeDescs, unused]

/-- Every update conserves the store. The updates not named touch no free list and no cells of a record. -/
theorem storeConserved_keptByUpdates : KeptByUpdates State.StoreConserved := by
  constructor
  case onQuiescing =>
    intro a s h _ _
    exact enterQuiescing_keeps_storeConserved h a
  case onPostNow =>
    intro a ch len pass l p s h _ _ _ _ _ _
    have accepted : (acceptPost a p s).StoreConserved := h.frame (.of_fields (by simp) (by simp) (by simp))
    exact accepted.allocate a p
  case onCancelPost | onRoomTimer =>
    intros
    exact lawOfWaits_storeConserved.removeWaiting ‹State.StoreConserved _› _ _ _
  case onCloseChannel =>
    intro ch s h _
    have closed : (s.modChan ch fun e => { e with state := .closed }).StoreConserved := h
    exact lawOfWaits_storeConserved.removeWaiting closed _ _ _
  case onTake =>
    intro a c d rest s h _ _ _ _
    cases hm : s.msg d with
    | none => rwa [takeHead, hm]
    | some m => exact h.frame ⟨by simp, by simp, readMsg_of_put hm (takeHead_messages hm a c) rfl⟩
  case onRelease =>
    intros
    exact State.StoreConserved.endMessage (State.StoreConserved.modSt ‹_›) _ _
  case onReset =>
    intro v q
    have apart : ∀ s : State, s.StoreConserved → ({ s with supervisor := v, pending := q } : State).StoreConserved :=
      fun _ h => h
    exact apart _ reset_storeConserved
  case onFaultDelivery =>
    intro d c code addr s h _
    exact h.frame ⟨by simp, by simp, faultDelivery_readMsg (fun _ _ => rfl) d code addr s⟩
  case onCopyCompletion =>
    intro a p d m s h _ hm
    have copied : ({ s with cellStore := copyPayload m.cells m.length (s.st a).staging s.cellStore } :
      State).StoreConserved := h
    exact (attemptEnqueue_keeps_storeConserved copied a p hm).startIfIdle.quiesce a
  case onComplete =>
    intro d c s h _ _
    have advanced : (advanceRing d s).StoreConserved := h.frame (.of_fields (by simp) (by simp) (by simp))
    have settled : (settleRing d.station (setSource d.station (srcArrive d.cls)
        (endMessage .delivered d.desc (advanceRing d s)))).StoreConserved :=
      (advanced.endMessage .delivered d.desc).frame (.of_fields (by simp) (by simp) (by simp))
    unfold completeDelivery
    exact settled.frame ⟨by simp, by simp, advanceBurst_readMsg (fun _ _ => rfl) _⟩
  case onEnableRing | onResumeRing | onConsume =>
    intros
    exact State.StoreConserved.startIfIdle (State.StoreConserved.modSt ‹_›)
  case onAnswer | onPending | onCount | onSetTick | onSetEngine | onReassert | onRetry | onTick | onBusGrant =>
    intros
    assumption
  all_goals
    intros
    exact State.StoreConserved.frame ‹_› (.of_fields (by simp) (by simp) (by simp))

end Sys2Proof.Machine
end

section
/-! What binds a lock to a message or to a pending post (spec chapter 6, section 6.5): PLEDGED by a station, CARRIED by a
descriptor, or neither; and what each operation does to it. -/

namespace Sys2Proof.Machine

-- One proof at a time: many at once take more threads than the check allows.
set_option Elab.async false

/-- The station that has pledged the lock, or the descriptor that carries it; none while it is FREE or HELD. -/
def LockState.bound : LockState → Option (StationId ⊕ DescId)
  | .pledged a => some (.inl a)
  | .carried d => some (.inr d)
  | _ => none

theorem LockState.bound_eq_pledged (st : LockState) (a : StationId) : st.bound = some (.inl a) ↔ st = .pledged a := by
  cases st <;> simp [LockState.bound]

theorem LockState.bound_eq_carried (st : LockState) (d : DescId) : st.bound = some (.inr d) ↔ st = .carried d := by
  cases st <;> simp [LockState.bound]

/-- What binds lock `l`. -/
def State.bound (s : State) (l : LockId) : Option (StationId ⊕ DescId) := (s.lock l).state.bound

theorem State.bound_of_locks {s t : State} (h : t.locks = s.locks) (l : LockId) : t.bound l = s.bound l := by
  unfold State.bound State.lock
  rw [h]

/-! ### A handoff -/

/-- Where a handoff leaves the lock: FREE, or HELD by a station that is ONLINE (R101). -/
theorem handoffAmong_lock_state (l : LockId) (ws : List StationId) (s : State) :
    ((handoffAmong l ws s).lock l).state = .free ∨
      ∃ w ∈ ws, ((handoffAmong l ws s).lock l).state = .held w ∧ (s.st w).state = .online := by
  induction ws generalizing s with
  | nil => exact .inl (by simp [handoffAmong])
  | cons w rest ih =>
    unfold handoffAmong
    split
    · rename_i online
      exact .inr ⟨w, by simp, by simp, online⟩
    · rcases ih (endWait w .cancelled s) with free | ⟨v, mem, held, online⟩
      · exact .inl free
      · exact .inr ⟨v, List.mem_cons_of_mem w mem, held, by simpa using online⟩

theorem handoffAmong_lock_other {l k : LockId} (ne : k ≠ l) (ws : List StationId) (s : State) :
    (handoffAmong l ws s).lock k = s.lock k := by
  induction ws generalizing s with
  | nil => simp [handoffAmong, ne]
  | cons w rest ih =>
    unfold handoffAmong
    split
    · simp [ne]
    · simpa using ih (endWait w .cancelled s)

theorem handoff_lock_state (l : LockId) (s : State) : ((handoff l s).lock l).state = .free ∨
    ∃ w ∈ (s.lock l).waiters, ((handoff l s).lock l).state = .held w ∧ (s.st w).state = .online :=
  handoffAmong_lock_state l _ s

theorem handoff_lock_other {l k : LockId} (ne : k ≠ l) (s : State) : (handoff l s).lock k = s.lock k :=
  handoffAmong_lock_other ne _ s

theorem handoff_bound (l k : LockId) (s : State) : (handoff l s).bound k = if k = l then none else s.bound k := by
  unfold State.bound
  by_cases e : k = l
  · subst e
    rcases handoff_lock_state k s with free | ⟨w, -, held, -⟩
    · simp [free, LockState.bound]
    · simp [held, LockState.bound]
  · simp [e, handoff_lock_other e]

/-! ### The other operations -/

theorem passLock_lock_state (l : LockId) (r : StationId) (s : State) : ((passLock l r s).lock l).state = .held r := by
  unfold passLock
  split <;> simp

theorem passLock_lock_other {l k : LockId} (ne : k ≠ l) (r : StationId) (s : State) :
    (passLock l r s).lock k = s.lock k := by
  unfold passLock
  split <;> simp [ne]

theorem passLock_bound (l k : LockId) (r : StationId) (s : State) :
    (passLock l r s).bound k = if k = l then none else s.bound k := by
  unfold State.bound
  by_cases e : k = l
  · subst e; simp [passLock_lock_state, LockState.bound]
  · simp [e, passLock_lock_other e]

theorem setLockState_bound (l : Option LockId) (st : LockState) (s : State) (k : LockId) :
    (setLockState l st s).bound k = if l = some k then st.bound else s.bound k := by
  unfold setLockState State.bound
  cases l with
  | none => simp
  | some l =>
    by_cases e : k = l
    · subst e; simp
    · simp [e, Ne.symm e]

theorem leaveWait_bound (a : StationId) (o : WaitOutcome) (s : State) (k : LockId) :
    (leaveWait a o s).bound k = s.bound k := by
  unfold State.bound
  rw [(leaveWait_lock a o s k).1]

theorem releaseIfHeld_bound (a : StationId) (l k : LockId) (s : State) : (releaseIfHeld a s l).bound k = s.bound k := by
  unfold releaseIfHeld
  split
  · rename_i held
    rw [handoff_bound]
    split
    · rename_i same
      subst same
      simp [State.bound, held, LockState.bound]
    · rfl
  · rfl

theorem releaseHoldings_bound (a : StationId) (s : State) (k : LockId) : (releaseHoldings a s).bound k = s.bound k :=
  foldl_keeps (P := fun t => t.bound k = s.bound k) (fun t l h => (releaseIfHeld_bound a l k t).trans h) _ s rfl

/-- The end of a message unbinds the lock it carries; a RELEASED end finds none. -/
theorem disposeLock_bound (o : EndOutcome) (m : Message) (s : State) (released : o = .released → m.carriedLock = none)
    (k : LockId) : (disposeLock o m s).bound k = if m.carriedLock = some k then none else s.bound k := by
  cases carried : m.carriedLock with
  | none =>
    have left : disposeLock o m s = s := by
      unfold disposeLock
      rw [carried]
      cases o <;> rfl
    simp [left]
  | some l =>
    cases o with
    | released => simp [carried] at released
    | delivered =>
      have passed : disposeLock .delivered m s = passLock l m.dest s := by simp only [disposeLock, carried]
      simp [passed, passLock_bound, eq_comm]
    | discarded =>
      have handed : disposeLock .discarded m s = handoff l s := by simp only [disposeLock, carried]
      simp [handed, handoff_bound, eq_comm]

end Sys2Proof.Machine
end

section
/-! The places of the messages (spec chapter 1, R7), in the middle of a command: what `State.MessagesPlaced` says, seen past
a delivery that has ended, records taken out of their places to be ended, and a copy that has ended. -/

namespace Sys2Proof.Machine

-- One proof at a time: many at once take more threads than the check allows.
set_option Elab.async false

/-- How the places are to be read: the delivery in progress, the records on their way out, and the station whose copy has
ended though its send state does not say so yet. -/
structure View where
  delivery : Option Delivery
  out : List DescId
  ended : Option StationId

/-- The view of a state between two commands. -/
def State.view (s : State) : View := { delivery := s.engine.delivery, out := [], ended := none }

/-- The send state of a station, IDLE where its copy is taken to have ended. -/
def State.sendOf (s : State) (ended : Option StationId) (a : StationId) : SendState :=
  if ended = some a then .idle else (s.st a).send

/-- The place a message's state says it is in, under a view. -/
def State.InPlace (v : View) (s : State) (d : DescId) (m : Message) : Prop :=
  match m.state with
  | .filling => ∃ p, s.sendOf v.ended m.source = .copying p d
  | .queued => d ∈ (s.st m.dest).queue m.cls
  | .delivering => ∃ r, v.delivery = some r ∧ r.desc = d
  | .reading => ∃ slot, (s.st m.dest).readSlot = some slot ∧ slot.desc = d

/-- No place names the descriptor, and no lock is bound to it that it does not carry in full. -/
structure State.Unplaced (v : View) (s : State) (d : DescId) (m : Message) : Prop where
  copying : ∀ a p, s.sendOf v.ended a ≠ .copying p d
  queued : ∀ a c, d ∉ (s.st a).queue c
  reading : ∀ a slot, (s.st a).readSlot = some slot → slot.desc ≠ d
  lock : m.state = .filling → ∀ l, m.carriedLock = some l → s.bound l = none

/-- `State.MessagesPlaced` under a view, with the law of the free descriptors. -/
structure State.Placed (v : View) (s : State) : Prop where
  free : s.DescsFree
  copying : ∀ a p d, s.sendOf v.ended a = .copying p d → ∃ m, s.msg d = some m ∧ m.FilledBy a p
  queued : ∀ a c, ((s.st a).queue c).Nodup ∧ ∀ d ∈ (s.st a).queue c,
    ∃ m, s.msg d = some m ∧ m.dest = a ∧ m.cls = c ∧ (m.state = .queued ∨ m.state = .delivering)
  delivering : ∀ r, v.delivery = some r → ∃ m, s.msg r.desc = some m ∧ m.state = .delivering ∧
    m.dest = r.station ∧ m.cls = r.cls ∧ ((s.st r.station).queue r.cls).head? = some r.desc
  reading : ∀ a slot, (s.st a).readSlot = some slot →
    ∃ m, s.msg slot.desc = some m ∧ m.dest = a ∧ m.state = .reading ∧ m.carriedLock = none
  placed : ∀ d m, s.msg d = some m → d ∉ v.out → s.InPlace v d m
  carried : ∀ l d, s.bound l = some (.inr d) ↔ ∃ m, s.msg d = some m ∧ m.carriedLock = some l ∧ m.state ≠ .filling
  pledged : ∀ l a, s.bound l = some (.inl a) ↔ ∃ p, (s.sendOf v.ended a).post = some p ∧ p.passLock = some l
  outNodup : v.out.Nodup
  unplaced : ∀ d ∈ v.out, ∃ m, s.msg d = some m ∧ s.Unplaced v d m
  ended : ∀ a, v.ended = some a → ∀ p, (s.st a).send ≠ .awaitRoom p

/-- Between two commands a send state is what it says. -/
theorem State.sendOf_none (s : State) (a : StationId) : s.sendOf none a = (s.st a).send := by simp [State.sendOf]

theorem State.inPlace_view_iff (s : State) (d : DescId) (m : Message) : s.InPlace s.view d m ↔ s.InItsPlace d m := by
  unfold State.InPlace State.InItsPlace
  cases m.state with
  | filling => simp [State.view, State.sendOf_none]
  | queued => rfl
  | delivering => rfl
  | reading => rfl

/-- Between two commands it is `State.MessagesPlaced`. -/
theorem State.placed_view_iff (s : State) : s.Placed s.view ↔ s.DescsFree ∧ s.MessagesPlaced := by
  have bound_carried : ∀ l d, s.bound l = some (.inr d) ↔ (s.lock l).state = .carried d := fun l =>
    LockState.bound_eq_carried _
  have bound_pledged : ∀ l a, s.bound l = some (.inl a) ↔ (s.lock l).state = .pledged a := fun l =>
    LockState.bound_eq_pledged _
  have pledges : ∀ (l : LockId) a, (∃ p, (s.sendOf none a).post = some p ∧ p.passLock = some l) ↔
      ∃ p, (s.st a).send.post = some p ∧ p.passLock = some l := fun l a => by rw [State.sendOf_none]
  constructor
  · intro h
    exact ⟨h.free, fun a p d hd => h.copying a p d ((s.sendOf_none a).trans hd), h.queued, h.delivering, h.reading,
      fun d m hm => (s.inPlace_view_iff d m).mp (h.placed d m hm (by simp [State.view])),
      fun l d => (bound_carried l d).symm.trans (h.carried l d),
      fun l a => (bound_pledged l a).symm.trans ((h.pledged l a).trans (pledges l a))⟩
  · rintro ⟨free, h⟩
    exact ⟨free, fun a p d hd => h.copying a p d ((s.sendOf_none a).symm.trans hd), h.queued, h.delivering, h.reading,
      fun d m hm _ => (s.inPlace_view_iff d m).mpr (h.placed d m hm), fun l d => (bound_carried l d).trans (h.carried l d),
      fun l a => (bound_pledged l a).trans ((h.pledged l a).trans (pledges l a).symm), by simp [State.view],
      by simp [State.view], by simp [State.view]⟩

/-! ### What a view does not see -/

/-- The places stand in a state that names the same ones, whichever of the two says that a copy has ended. -/
theorem State.Placed.reframe {v w : View} {s t : State} (h : s.Placed v) (delivery : w.delivery = v.delivery)
    (out : w.out = v.out) (freeDescs : t.freeDescs = s.freeDescs) (messages : t.messages = s.messages)
    (sends : ∀ b, t.sendOf w.ended b = s.sendOf v.ended b)
    (stations : ∀ b, (t.st b).queues = (s.st b).queues ∧ (t.st b).readSlot = (s.st b).readSlot)
    (bound : ∀ l, t.bound l = s.bound l) (ended : ∀ a, w.ended = some a → ∀ p, (t.st a).send ≠ .awaitRoom p) :
    t.Placed w := by
  have msg : ∀ d, t.msg d = s.msg d := fun d => by simp only [State.msg, messages]
  have queues : ∀ b c, (t.st b).queue c = (s.st b).queue c := fun b c => by simp only [StationRec.queue, (stations b).1]
  have slots : ∀ b, (t.st b).readSlot = (s.st b).readSlot := fun b => (stations b).2
  constructor
  · exact h.free.congr freeDescs (State.channelOf_of_messages messages)
  · simpa only [msg, sends] using h.copying
  · simpa only [msg, queues] using h.queued
  · simpa only [msg, queues, delivery] using h.delivering
  · simpa only [msg, slots] using h.reading
  · intro d m hm hout
    have place := h.placed d m (msg d ▸ hm) (out ▸ hout)
    unfold State.InPlace at place ⊢
    simpa only [sends, queues, slots, delivery] using place
  · simpa only [msg, bound] using h.carried
  · simpa only [sends, bound] using h.pledged
  · exact out ▸ h.outNodup
  · intro d hd
    obtain ⟨m, hm, unplaced⟩ := h.unplaced d (out ▸ hd)
    refine ⟨m, (msg d).trans hm, ?_, ?_, ?_, ?_⟩
    · simpa only [sends] using unplaced.copying
    · simpa only [queues] using unplaced.queued
    · simpa only [slots] using unplaced.reading
    · simpa only [bound] using unplaced.lock
  · exact ended

/-- A state that differs in no place, no record and no binding of a lock. -/
structure SamePlaces (s t : State) : Prop where
  freeDescs : t.freeDescs = s.freeDescs
  messages : t.messages = s.messages
  stations : ∀ b, (t.st b).send = (s.st b).send ∧ (t.st b).queues = (s.st b).queues ∧
    (t.st b).readSlot = (s.st b).readSlot
  bound : ∀ l, t.bound l = s.bound l

theorem SamePlaces.of_locks {s t : State} (freeDescs : t.freeDescs = s.freeDescs) (messages : t.messages = s.messages)
    (locks : t.locks = s.locks) (stations : ∀ b, (t.st b).send = (s.st b).send ∧ (t.st b).queues = (s.st b).queues ∧
      (t.st b).readSlot = (s.st b).readSlot) : SamePlaces s t :=
  ⟨freeDescs, messages, stations, State.bound_of_locks locks⟩

theorem State.Placed.frame {v : View} {s t : State} (h : s.Placed v) (same : SamePlaces s t) : t.Placed v := by
  obtain ⟨freeDescs, messages, stations, bound⟩ := same
  refine h.reframe rfl rfl freeDescs messages (fun b => ?_) (fun b => (stations b).2) bound fun a ha p => ?_
  · simp only [State.sendOf, (stations b).1]
  · rw [(stations a).1]
    exact h.ended a ha p

/-- A delivery whose record goes on to another write is the same delivery. -/
theorem State.Placed.redelivered {v w : View} {s : State} (h : s.Placed v) (out : w.out = v.out) (ended : w.ended = v.ended)
    (same : ∀ r, w.delivery = some r → ∃ r', v.delivery = some r' ∧ r'.station = r.station ∧ r'.cls = r.cls ∧
      r'.desc = r.desc)
    (back : ∀ r, v.delivery = some r → ∃ r', w.delivery = some r' ∧ r'.desc = r.desc) : s.Placed w := by
  obtain ⟨delivery, out', ended'⟩ := w
  obtain rfl : out' = v.out := out
  obtain rfl : ended' = v.ended := ended
  refine ⟨h.free, h.copying, h.queued, fun r hr => ?_, h.reading, fun d m hm out => ?_, h.carried, h.pledged, h.outNodup,
    fun d hd => ?_, h.ended⟩
  · obtain ⟨r', hr', station, cls, desc⟩ := same r hr
    rw [← station, ← cls, ← desc]
    exact h.delivering r' hr'
  · have place := h.placed d m hm out
    unfold State.InPlace at place ⊢
    cases hs : m.state with
    | delivering =>
      simp only [hs] at place ⊢
      obtain ⟨r, hr, rfl⟩ := place
      exact back r hr
    | filling => simpa only [hs] using place
    | queued => simpa only [hs] using place
    | reading => simpa only [hs] using place
  · obtain ⟨m, hm, unplaced⟩ := h.unplaced d hd
    exact ⟨m, hm, ⟨unplaced.copying, unplaced.queued, unplaced.reading, unplaced.lock⟩⟩

/-! ### Room -/

theorem State.sendOf_of_await {v : View} {s : State} (h : s.Placed v) {a : StationId} {p : Post}
    (waits : (s.st a).send = .awaitRoom p) : v.ended ≠ some a ∧ s.sendOf v.ended a = .awaitRoom p := by
  have notEnded : v.ended ≠ some a := fun e => h.ended a e p waits
  exact ⟨notEnded, by rw [State.sendOf, if_neg notEnded, waits]⟩

/-- The grant of a waiting post fills a free descriptor (R10, R14). -/
theorem State.Placed.allocate {v : View} {s : State} (h : s.Placed v) {a : StationId} {p : Post}
    (waits : (s.st a).send = .awaitRoom p) : (allocate a p s).Placed v := by
  cases free : s.freeDescs with
  | nil => rwa [Machine.allocate, free]
  | cons d rest =>
    obtain ⟨notEnded, waiting⟩ := State.sendOf_of_await h waits
    have unused : s.msg d = none := (h.free.2 d).mp (by simp [free])
    have fresh : ∀ {e m}, s.msg e = some m → e ≠ d := fun {e m} he same => by simp [← same, he] at unused
    let t := Machine.allocate a p s
    have others : ∀ {e}, e ≠ d → t.msg e = s.msg e := fun {e} ne => by simp [t, allocate_eq free, State.msg, ne]
    have kept : ∀ {e m}, s.msg e = some m → t.msg e = some m := fun {e m} he => (others (fresh he)).trans he
    obtain ⟨new, filled, byPost⟩ : ∃ m, t.msg d = some m ∧ m.FilledBy a p :=
      ⟨_, by simp only [t, allocate_eq free, State.msg]; exact entry_put_same _ _ _, rfl, rfl, rfl, rfl, rfl, rfl, rfl, rfl, rfl, rfl⟩
    have ⟨filling, source, _⟩ := byPost
    have sends : ∀ b, t.sendOf v.ended b = if b = a then .copying p d else s.sendOf v.ended b := fun b => by
      by_cases e : b = a
      · subst e; simp [t, State.sendOf, notEnded, allocate_eq free, State.st]
      · simp [t, State.sendOf, e]
    have posts : ∀ b, (t.sendOf v.ended b).post = (s.sendOf v.ended b).post := fun b => by
      rw [sends]
      split
      · rename_i e
        subst e
        rw [waiting]
        rfl
      · rfl
    have bound : ∀ l, t.bound l = s.bound l := State.bound_of_locks (by simp [t])
    have queues : ∀ b c, (t.st b).queue c = (s.st b).queue c := fun b c => by simp [t, StationRec.queue]
    have slots : ∀ b, (t.st b).readSlot = (s.st b).readSlot := fun b => by simp [t]
    show t.Placed v
    refine ⟨h.free.allocate a p, fun b q e hb => ?_, fun b c => ?_, fun r hr => ?_, fun b slot hs => ?_,
      fun e m hm out => ?_, fun l e => ?_, fun l b => ?_, h.outNodup, fun e he => ?_, fun b hb q => ?_⟩
    · rw [sends] at hb
      split at hb
      · rename_i e'
        subst e'
        obtain ⟨rfl, rfl⟩ := SendState.copying.inj hb
        exact ⟨new, filled, byPost⟩
      · obtain ⟨m, hm, by_⟩ := h.copying b q e hb
        exact ⟨m, kept hm, by_⟩
    · obtain ⟨nodup, mem⟩ := h.queued b c
      rw [queues]
      exact ⟨nodup, fun e he => (mem e he).imp fun m ⟨hm, rest⟩ => ⟨kept hm, rest⟩⟩
    · rw [queues]
      exact (h.delivering r hr).imp fun m ⟨hm, rest⟩ => ⟨kept hm, rest⟩
    · exact (h.reading b slot (slots b ▸ hs)).imp fun m ⟨hm, rest⟩ => ⟨kept hm, rest⟩
    · by_cases same : e = d
      · subst same
        obtain rfl := Option.some.inj (filled.symm.trans hm)
        unfold State.InPlace
        rw [filling, source]
        exact ⟨p, by simp [sends]⟩
      · have place := h.placed e m ((others same).symm.trans hm) out
        unfold State.InPlace at place ⊢
        cases hs : m.state with
        | filling =>
          simp only [hs] at place ⊢
          obtain ⟨q, hq⟩ := place
          refine ⟨q, ?_⟩
          rw [sends, if_neg, hq]
          intro e'
          simp [e', waiting] at hq
        | queued => simpa only [hs, queues] using place
        | delivering => simpa only [hs] using place
        | reading => simpa only [hs, slots] using place
    · rw [bound, h.carried]
      constructor
      · rintro ⟨m, hm, rest⟩
        exact ⟨m, kept hm, rest⟩
      · rintro ⟨m, hm, lock, notFilling⟩
        by_cases same : e = d
        · subst same
          obtain rfl := Option.some.inj (filled.symm.trans hm)
          exact absurd filling notFilling
        · exact ⟨m, (others same).symm.trans hm, lock, notFilling⟩
    · rw [bound, posts]
      exact h.pledged l b
    · obtain ⟨m, hm, unplaced⟩ := h.unplaced e he
      refine ⟨m, kept hm, fun b q hb => ?_, fun b c => ?_, fun b slot hs => ?_, fun st l hl => ?_⟩
      · rw [sends] at hb
        split at hb
        · obtain ⟨-, rfl⟩ := SendState.copying.inj hb
          exact fresh hm rfl
        · exact unplaced.copying b q hb
      · rw [queues]; exact unplaced.queued b c
      · exact unplaced.reading b slot (slots b ▸ hs)
      · rw [bound]; exact unplaced.lock st l hl
    · have ne : b ≠ a := fun e => notEnded (e ▸ hb)
      simpa [t, ne] using h.ended b hb q

/-- The end of a room wait returns the lock its post had pledged (R48, R107). -/
theorem State.Placed.endRoomWait {v : View} {s : State} (h : s.Placed v) (a : StationId) (o : SendOutcome) (sent : Bool) :
    (endRoomWait a o sent s).Placed v := by
  cases waits : (s.st a).send with
  | idle => simpa [Machine.endRoomWait, waits] using h
  | copying p d => simpa [Machine.endRoomWait, waits] using h
  | awaitRoom p =>
    obtain ⟨notEnded, waiting⟩ := State.sendOf_of_await h waits
    let t := Machine.endRoomWait a o sent s
    have messages : t.messages = s.messages := by simp [t]
    have msg : ∀ e, t.msg e = s.msg e := fun e => by simp only [State.msg, messages]
    have sends : ∀ b, t.sendOf v.ended b = if b = a then .idle else s.sendOf v.ended b := fun b => by
      by_cases e : b = a
      · subst e; simp [t, State.sendOf, notEnded, endRoomWait_send waits]
      · simp [t, State.sendOf, e]
    have copies : ∀ b q d, t.sendOf v.ended b = .copying q d ↔ s.sendOf v.ended b = .copying q d := fun b q d => by
      rw [sends]
      split
      · rename_i e
        subst e
        simp [waiting]
      · rfl
    have bound : ∀ l, t.bound l = if p.passLock = some l then none else s.bound l := fun l => by
      have locks : t.locks = (setLockState p.passLock (.held a) s).locks := by
        simp only [t, endRoomWait_eq waits]
        cases p.passLock <;> rfl
      rw [State.bound_of_locks locks, setLockState_bound]
      rfl
    have own : ∀ {l}, p.passLock = some l → s.bound l = some (.inl a) := fun {l} hl =>
      (h.pledged l a).mpr ⟨p, by rw [waiting]; rfl, hl⟩
    have queues : ∀ b c, (t.st b).queue c = (s.st b).queue c := fun b c => by simp [t, StationRec.queue]
    have slots : ∀ b, (t.st b).readSlot = (s.st b).readSlot := fun b => by simp [t]
    show t.Placed v
    refine ⟨h.free.congr (by simp [t]) (State.channelOf_of_messages messages), ?_, ?_, ?_, ?_, fun e m hm out => ?_,
      fun l e => ?_, fun l b => ?_, h.outNodup, fun e he => ?_, fun b hb q => ?_⟩
    · simpa only [copies, msg] using h.copying
    · simpa only [queues, msg] using h.queued
    · simpa only [queues, msg] using h.delivering
    · simpa only [slots, msg] using h.reading
    · have place := h.placed e m (msg e ▸ hm) out
      unfold State.InPlace at place ⊢
      simpa only [copies, queues, slots] using place
    · rw [bound, msg e]
      split
      · rename_i hl
        refine ⟨fun he => absurd he (by simp), fun he => ?_⟩
        have other := (h.carried l e).mpr he
        simp [own hl] at other
      · exact h.carried l e
    · rw [bound, sends]
      split
      · rename_i hl
        refine ⟨fun hb => absurd hb (by simp), fun ⟨q, hq, lock⟩ => ?_⟩
        split at hq
        · simp [SendState.post] at hq
        · rename_i ne
          have other := (h.pledged l b).mpr ⟨q, hq, lock⟩
          rw [own hl] at other
          exact absurd (Sum.inl.inj (Option.some.inj other)).symm ne
      · rename_i hl
        split
        · rename_i e
          subst e
          refine ⟨fun hb => ?_, by simp [SendState.post]⟩
          obtain ⟨q, hq, lock⟩ := (h.pledged l b).mp hb
          rw [waiting] at hq
          obtain rfl : p = q := Option.some.inj hq
          exact absurd lock hl
        · exact h.pledged l b
    · obtain ⟨m, hm, unplaced⟩ := h.unplaced e he
      refine ⟨m, (msg e).trans hm, ?_, ?_, ?_, fun st l hl => ?_⟩
      · simpa only [ne_eq, copies] using unplaced.copying
      · simpa only [queues] using unplaced.queued
      · simpa only [slots] using unplaced.reading
      · rw [bound, unplaced.lock st l hl]
        simp
    · have ne : b ≠ a := fun e => notEnded (e ▸ hb)
      simpa [t, ne] using h.ended b hb q

/-- The places stand whatever waits. -/
theorem lawOfWaits_placed (v : View) : LawOfWaits fun _ s => s.Placed v where
  perm _ h := h
  onQueue _ h := h.frame ⟨rfl, rfl, fun _ => ⟨rfl, rfl, rfl⟩, fun _ => rfl⟩
  onGrant {e _ s} h _ := by
    unfold grant
    split
    · exact h.allocate ‹_›
    · exact h
  onEnd o sent h := h.endRoomWait _ o sent

theorem State.Placed.examine {v : View} {s : State} (h : s.Placed v) : (examine s).Placed v :=
  (lawOfWaits_placed v).examine h

theorem State.Placed.removeWaiting {v : View} {s : State} (h : s.Placed v) (p : RoomEntry → Bool) (o : SendOutcome)
    (sent : Bool) : (removeWaiting p o sent s).Placed v := (lawOfWaits_placed v).removeWaiting h p o sent

end Sys2Proof.Machine
end

section
/-! How the places move: the end of a record, what leaves its place to end, and a copy's end in its two forms (spec chapter 1,
R7; chapter 3, R52, R53; chapter 5, R82). -/

namespace Sys2Proof.Machine

-- One proof at a time: many at once take more threads than the check allows.
set_option Elab.async false

/-! ### The end of a record -/

/-- A record on its way out is freed, its lock unbound. -/
theorem State.Placed.freed {r : Option Delivery} {d : DescId} {out : List DescId} {e : Option StationId} {m : Message}
    {s u : State} (h : s.Placed ⟨r, d :: out, e⟩) (hm : s.msg d = some m) (freeDescs : u.freeDescs = s.freeDescs)
    (messages : u.messages = s.messages) (stations : ∀ b, (u.st b).send = (s.st b).send ∧ (u.st b).queues = (s.st b).queues ∧
      (u.st b).readSlot = (s.st b).readSlot)
    (bound : ∀ l, u.bound l = if m.carriedLock = some l then none else s.bound l) : (u.freed d m).Placed ⟨r, out, e⟩ := by
  obtain ⟨m', hm', unplaced⟩ := h.unplaced d (by simp)
  obtain rfl : m = m' := Option.some.inj (hm.symm.trans hm')
  obtain ⟨notIn, nodup⟩ := List.nodup_cons.mp h.outNodup
  let t := u.freed d m
  have used : ∀ x, u.msg x = s.msg x := fun x => by simp only [State.msg, messages]
  have others : ∀ {x}, x ≠ d → t.msg x = s.msg x := fun {x} ne => (State.freed_msg_ne u m ne).trans (used x)
  have gone : ∀ {x y}, t.msg x = some y → x ≠ d ∧ s.msg x = some y := fun {x y} hx => by
    have ne : x ≠ d := fun same => by simp [t, same] at hx
    exact ⟨ne, (others ne).symm.trans hx⟩
  have sends : ∀ b, t.sendOf e b = s.sendOf e b := fun b => by simp [State.sendOf, t, (stations b).1]
  have queues : ∀ b c, (t.st b).queue c = (s.st b).queue c := fun b c => by simp [StationRec.queue, t, (stations b).2.1]
  have slots : ∀ b, (t.st b).readSlot = (s.st b).readSlot := fun b => by simp [t, (stations b).2.2]
  have binds : ∀ l, t.bound l = if m.carriedLock = some l then none else s.bound l := fun l =>
    (State.bound_of_locks (by simp [t]) l).trans (bound l)
  have own : ∀ {l}, m.carriedLock = some l → s.bound l = some (.inr d) ∨ s.bound l = none := fun {l} hl => by
    by_cases filling : m.state = .filling
    · exact .inr (unplaced.lock filling l hl)
    · exact .inl ((h.carried l d).mpr ⟨m, hm, hl, filling⟩)
  show t.Placed ⟨r, out, e⟩
  refine ⟨?_, fun b p x hb => ?_, fun b c => ?_, fun y hy => ?_, fun b slot hs => ?_, fun x y hx hout => ?_, fun l x => ?_,
    fun l b => ?_, nodup, fun x hx => ?_, fun b hb p => ?_⟩
  · exact (h.free.congr freeDescs (State.channelOf_of_messages messages)).freed (by simp [used, hm])
  · rw [sends] at hb
    obtain ⟨y, hy, filled⟩ := h.copying b p x hb
    have ne : x ≠ d := fun same => unplaced.copying b p (same ▸ hb)
    exact ⟨y, (others ne).trans hy, filled⟩
  · obtain ⟨once, mem⟩ := h.queued b c
    rw [queues]
    refine ⟨once, fun x hx => ?_⟩
    obtain ⟨y, hy, rest⟩ := mem x hx
    have ne : x ≠ d := fun same => unplaced.queued b c (same ▸ hx)
    exact ⟨y, (others ne).trans hy, rest⟩
  · obtain ⟨z, hz, delivering, dest, cls, head⟩ := h.delivering y hy
    have ne : y.desc ≠ d := fun same => unplaced.queued y.station y.cls (same ▸ List.mem_of_mem_head? head)
    exact ⟨z, (others ne).trans hz, delivering, dest, cls, by rw [queues]; exact head⟩
  · rw [slots] at hs
    obtain ⟨y, hy, rest⟩ := h.reading b slot hs
    exact ⟨y, (others (unplaced.reading b slot hs)).trans hy, rest⟩
  · obtain ⟨ne, hx⟩ := gone hx
    have place := h.placed x y hx (by simp [ne, hout])
    unfold State.InPlace at place ⊢
    simpa only [sends, queues, slots] using place
  · rw [binds]
    split
    · rename_i hl
      refine ⟨fun no => absurd no (by simp), fun ⟨y, hy, lock, notFilling⟩ => ?_⟩
      obtain ⟨ne, hy⟩ := gone hy
      have other := (h.carried l x).mpr ⟨y, hy, lock, notFilling⟩
      rcases own hl with by_d | unbound
      · simp [by_d, ne.symm] at other
      · simp [unbound] at other
    · rename_i hl
      rw [h.carried]
      refine ⟨fun ⟨y, hy, lock, rest⟩ => ⟨y, ?_, lock, rest⟩, fun ⟨y, hy, rest⟩ => ⟨y, (gone hy).2, rest⟩⟩
      rw [others fun same => ?_]
      · exact hy
      · subst same
        obtain rfl := Option.some.inj (hm.symm.trans hy)
        exact hl lock
  · rw [binds, sends]
    split
    · rename_i hl
      refine ⟨fun no => absurd no (by simp), fun pledged => ?_⟩
      have other := (h.pledged l b).mpr pledged
      rcases own hl with by_d | unbound
      · simp [by_d] at other
      · simp [unbound] at other
    · exact h.pledged l b
  · have ne : x ≠ d := fun same => notIn (same ▸ hx)
    obtain ⟨y, hy, away⟩ := h.unplaced x (by simp [hx])
    refine ⟨y, (others ne).trans hy, ?_, ?_, ?_, fun filling l hl => ?_⟩
    · simpa only [sends] using away.copying
    · simpa only [queues] using away.queued
    · simpa only [slots] using away.reading
    · rw [binds, away.lock filling l hl]
      simp
  · have send : (t.st b).send = (s.st b).send := by simp [t, (stations b).1]
    rw [send]
    exact h.ended b hb p

/-- A message on its way out ends, in any of its three ways. -/
theorem State.Placed.endMessage {r : Option Delivery} {d : DescId} {out : List DescId} {e : Option StationId} {s : State}
    (h : s.Placed ⟨r, d :: out, e⟩) (o : EndOutcome)
    (released : o = .released → ∀ m, s.msg d = some m → m.carriedLock = none) :
    (endMessage o d s).Placed ⟨r, out, e⟩ := by
  obtain ⟨m, hm, -⟩ := h.unplaced d (by simp)
  rw [endMessage_of_msg hm]
  refine (h.freed hm (by simp) (by simp) (fun b => by simp) fun l => ?_).examine
  rw [← disposeLock_bound o m s (fun ho => released ho m hm) l]
  exact State.bound_of_locks (by simp) l

/-- All the messages on their way out end DISCARDED. -/
theorem State.Placed.discardAll {r : Option Delivery} {out : List DescId} {e : Option StationId} {s : State}
    (h : s.Placed ⟨r, out, e⟩) : (discardAll out s).Placed ⟨r, [], e⟩ := by
  induction out generalizing s with
  | nil => exact h
  | cons d rest ih => exact ih (h.endMessage .discarded (by simp))

/-! ### What leaves its place to end -/

/-- Records leave their places to end: the queues, read slots and delivery keep the others. -/
theorem State.Placed.takeOut {r r' : Option Delivery} {out : List DescId} {s t : State} (h : s.Placed ⟨r, [], none⟩)
    (freeDescs : t.freeDescs = s.freeDescs) (messages : t.messages = s.messages) (locks : t.locks = s.locks)
    (sends : ∀ b, (t.st b).send = (s.st b).send)
    (queues : ∀ b c, ((t.st b).queue c).Sublist ((s.st b).queue c))
    (slots : ∀ b slot, (t.st b).readSlot = some slot → (s.st b).readSlot = some slot)
    (delivers : ∀ y, r' = some y → r = some y ∧ ((t.st y.station).queue y.cls).head? = ((s.st y.station).queue y.cls).head?)
    (outNodup : out.Nodup)
    (taken : ∀ d ∈ out, (∃ m, s.msg d = some m ∧ m.state ≠ .filling) ∧ (∀ b c, d ∉ (t.st b).queue c) ∧
      ∀ b slot, (t.st b).readSlot = some slot → slot.desc ≠ d)
    (left : ∀ b c, ∀ d ∈ (s.st b).queue c, d ∉ out → d ∈ (t.st b).queue c)
    (leftSlot : ∀ b slot, (s.st b).readSlot = some slot → slot.desc ∉ out → (t.st b).readSlot = some slot)
    (leftDelivery : ∀ y, r = some y → y.desc ∉ out → r' = some y) : t.Placed ⟨r', out, none⟩ := by
  have used : ∀ x, t.msg x = s.msg x := fun x => by simp only [State.msg, messages]
  have send : ∀ b, t.sendOf none b = s.sendOf none b := fun b => by simp only [State.sendOf, sends]
  have bound : ∀ l, t.bound l = s.bound l := State.bound_of_locks locks
  refine ⟨h.free.congr freeDescs (State.channelOf_of_messages messages), ?_, fun b c => ?_, fun y hy => ?_,
    fun b slot hs => ?_, fun x m hx hout => ?_, ?_, ?_, outNodup, fun x hx => ?_, by simp⟩
  · simpa only [used, send] using h.copying
  · obtain ⟨nodup, mem⟩ := h.queued b c
    refine ⟨nodup.sublist (queues b c), fun x hx => ?_⟩
    rw [used]
    exact mem x ((queues b c).subset hx)
  · obtain ⟨rfl, head⟩ := delivers y hy
    rw [used, head]
    exact h.delivering y rfl
  · rw [used]
    exact h.reading b slot (slots b slot hs)
  · have place := h.placed x m (used x ▸ hx) (by simp)
    unfold State.InPlace at place ⊢
    cases hs : m.state with
    | filling => simpa only [hs, send] using place
    | queued =>
      simp only [hs] at place ⊢
      exact left _ _ x place hout
    | delivering =>
      simp only [hs] at place ⊢
      obtain ⟨y, hy, rfl⟩ := place
      exact ⟨y, leftDelivery y hy hout, rfl⟩
    | reading =>
      simp only [hs] at place ⊢
      obtain ⟨slot, hslot, rfl⟩ := place
      exact ⟨slot, leftSlot _ slot hslot hout, rfl⟩
  · simpa only [used, bound] using h.carried
  · simpa only [send, bound] using h.pledged
  · obtain ⟨⟨m, hm, notFilling⟩, notQueued, notRead⟩ := taken x hx
    refine ⟨m, (used x).trans hm, fun b p hb => ?_, notQueued, notRead, fun filling => absurd filling notFilling⟩
    rw [send] at hb
    obtain ⟨m', hm', filled, -⟩ := h.copying b p x hb
    obtain rfl := Option.some.inj (hm.symm.trans hm')
    exact notFilling filled

/-- A queued record's state is none of the other two. -/
theorem State.Placed.queue_record {v : View} {s : State} (h : s.Placed v) {b : StationId} {c : ClassId} {d : DescId}
    (mem : d ∈ (s.st b).queue c) : ∃ m, s.msg d = some m ∧ m.dest = b ∧ m.cls = c ∧ m.state ≠ .filling ∧
      m.state ≠ .reading := by
  obtain ⟨m, hm, dest, cls, state⟩ := (h.queued b c).2 d mem
  exact ⟨m, hm, dest, cls, by rcases state with st | st <;> simp [st], by rcases state with st | st <;> simp [st]⟩

/-- A descriptor stands in one class queue of one station. -/
theorem State.Placed.queue_unique {v : View} {s : State} (h : s.Placed v) {a b : StationId} {c k : ClassId} {d : DescId}
    (here : d ∈ (s.st a).queue c) (there : d ∈ (s.st b).queue k) : a = b ∧ c = k := by
  obtain ⟨m, hm, dest, cls, -⟩ := h.queue_record here
  obtain ⟨m', hm', dest', cls', -⟩ := h.queue_record there
  obtain rfl := Option.some.inj (hm.symm.trans hm')
  exact ⟨dest.symm.trans dest', cls.symm.trans cls'⟩

/-- No descriptor stands in a queue and in a read slot. -/
theorem State.Placed.not_queued_of_slot {v : View} {s : State} (h : s.Placed v) {a b : StationId} {c : ClassId}
    {slot : ReadSlot} (here : (s.st a).readSlot = some slot) : slot.desc ∉ (s.st b).queue c := by
  intro there
  obtain ⟨m, hm, -, reading, -⟩ := h.reading a slot here
  obtain ⟨m', hm', -, -, -, notReading⟩ := h.queue_record there
  obtain rfl := Option.some.inj (hm.symm.trans hm')
  exact notReading reading

/-- A descriptor is in the read slot of one station. -/
theorem State.Placed.slot_unique {v : View} {s : State} (h : s.Placed v) {a b : StationId} {x y : ReadSlot}
    (here : (s.st a).readSlot = some x) (there : (s.st b).readSlot = some y) (same : x.desc = y.desc) : a = b := by
  obtain ⟨m, hm, dest, -⟩ := h.reading a x here
  obtain ⟨m', hm', dest', -⟩ := h.reading b y there
  obtain rfl := Option.some.inj (hm.symm.trans (same ▸ hm'))
  exact dest.symm.trans dest'

/-- RELEASE takes the message out of the read slot (R71). -/
theorem State.Placed.emptySlot {r : Option Delivery} {s : State} (h : s.Placed ⟨r, [], none⟩) {a : StationId}
    {slot : ReadSlot} (holds : (s.st a).readSlot = some slot) :
    (s.modSt a fun x => { x with readSlot := none }).Placed ⟨r, [slot.desc], none⟩ := by
  let t := s.modSt a fun x => { x with readSlot := none }
  have queues : ∀ b c, (t.st b).queue c = (s.st b).queue c := fun b c => by
    by_cases same : b = a
    · subst same; simp [t, StationRec.queue]
    · simp [t, same]
  have slots : ∀ b, (t.st b).readSlot = if b = a then none else (s.st b).readSlot := fun b => by
    by_cases same : b = a
    · subst same; simp [t]
    · simp [t, same]
  obtain ⟨m, hm, dest, reading, -⟩ := h.reading a slot holds
  have sends : ∀ b, (t.st b).send = (s.st b).send := fun b => by
    by_cases same : b = a
    · subst same; simp [t]
    · simp [t, same]
  refine h.takeOut (t := t) rfl rfl rfl sends (fun b c => by rw [queues])
    (fun b x hx => ?_) (fun y hy => ⟨hy, by rw [queues]⟩) (by simp) (fun d hd => ?_) (fun b c d hd _ => by rwa [queues])
    (fun b x hx away => ?_) fun y hy _ => hy
  · rw [slots] at hx
    split at hx
    · simp at hx
    · exact hx
  · obtain rfl := List.mem_singleton.mp hd
    refine ⟨⟨m, hm, by simp [reading]⟩, fun b c => ?_, fun b x hx same => ?_⟩
    · rw [queues]
      exact h.not_queued_of_slot holds
    · rw [slots] at hx
      split at hx
      · simp at hx
      · exact absurd (h.slot_unique hx holds same) ‹_›
  · rw [slots, if_neg]
    · exact hx
    · intro same
      subst same
      obtain rfl := Option.some.inj (hx.symm.trans holds)
      simp at away

/-- A completed delivery takes its message out of the head of its queue (R132). -/
theorem State.Placed.advanceRing {d : Delivery} {s : State} (h : s.Placed ⟨some d, [], none⟩) :
    (advanceRing d s).Placed ⟨none, [d.desc], none⟩ := by
  let t := Machine.advanceRing d s
  obtain ⟨m, hm, delivering, -, -, head⟩ := h.delivering d rfl
  have mem : d.desc ∈ (s.st d.station).queue d.cls := List.mem_of_mem_head? head
  obtain ⟨rest, queue⟩ : ∃ rest, (s.st d.station).queue d.cls = d.desc :: rest := List.head?_eq_some_iff.mp head
  have nodup : (d.desc :: rest).Nodup := queue ▸ (h.queued d.station d.cls).1
  have own : (t.st d.station).queue d.cls = rest := by
    simp only [t, Machine.advanceRing, State.st_modSt_same]
    exact (StationRec.queue_setQueue_same _ _ _).trans (by rw [queue]; rfl)
  have others : ∀ b c, ¬ (b = d.station ∧ c = d.cls) → (t.st b).queue c = (s.st b).queue c := fun b c ne => by
    by_cases same : b = d.station
    · subst same
      have ne : c ≠ d.cls := fun e => ne ⟨rfl, e⟩
      simp [t, Machine.advanceRing, StationRec.queue, StationRec.setQueue, ne]
    · simp [t, Machine.advanceRing, same]
  have slots : ∀ b, (t.st b).readSlot = (s.st b).readSlot := fun b => by simp [t]
  refine h.takeOut (t := t) rfl rfl rfl (by simp [t]) (fun b c => ?_) (fun b slot hs => slots b ▸ hs) (by simp) (by simp)
    (fun x hx => ?_) (fun b c x hx away => ?_) (fun b slot hs _ => (slots b).trans hs) fun y hy away => ?_
  · by_cases here : b = d.station ∧ c = d.cls
    · obtain ⟨rfl, rfl⟩ := here
      rw [own, queue]
      exact List.sublist_cons_self _ _
    · rw [others b c here]
  · obtain rfl := List.mem_singleton.mp hx
    refine ⟨⟨m, hm, by simp [delivering]⟩, fun b c hb => ?_, fun b slot hs same => ?_⟩
    · by_cases here : b = d.station ∧ c = d.cls
      · obtain ⟨rfl, rfl⟩ := here
        rw [own] at hb
        exact (List.nodup_cons.mp nodup).1 hb
      · rw [others b c here] at hb
        exact here (h.queue_unique hb mem)
    · exact h.not_queued_of_slot (slots b ▸ hs) (same ▸ mem)
  · by_cases here : b = d.station ∧ c = d.cls
    · obtain ⟨rfl, rfl⟩ := here
      rw [queue, List.mem_cons] at hx
      rw [own]
      exact hx.resolve_left fun same => away (by simp [same])
    · rwa [others b c here]
  · obtain rfl := Option.some.inj hy
    simp at away

/-- The descriptors a station holds: those of its queues and of its read slot. -/
theorem StationRec.mem_heldMessages {r : StationRec} {d : DescId} :
    d ∈ r.heldMessages ↔ (∃ c, d ∈ r.queue c) ∨ ∃ slot, r.readSlot = some slot ∧ slot.desc = d := by
  simp [StationRec.heldMessages, Fin.exists_fin_succ, or_assoc]

theorem State.Placed.heldMessages_nodup {v : View} {s : State} (h : s.Placed v) (a : StationId) :
    (s.st a).heldMessages.Nodup := by
  have apart : ∀ c k : ClassId, c ≠ k → ∀ x ∈ (s.st a).queue c, ∀ y ∈ (s.st a).queue k, x ≠ y :=
    fun c k ne x hx y hy same => ne (h.queue_unique hx (same ▸ hy)).2
  have fromSlot : ∀ c : ClassId, ∀ x ∈ (s.st a).queue c, ∀ slot, (s.st a).readSlot = some slot → x ≠ slot.desc :=
    fun c x hx slot hs same => h.not_queued_of_slot hs (same ▸ hx)
  have once : ∀ c, ((s.st a).queue c).Nodup := fun c => (h.queued a c).1
  unfold StationRec.heldMessages
  refine List.nodup_append.mpr ⟨?_, ?_, ?_⟩
  · simp only [List.nodup_append, List.mem_append, once, true_and]
    refine ⟨⟨apart 0 1 (by decide), ?_⟩, ?_⟩
    · rintro x (hx | hx) y hy
      · exact apart 0 2 (by decide) x hx y hy
      · exact apart 1 2 (by decide) x hx y hy
    · rintro x ((hx | hx) | hx) y hy
      · exact apart 0 3 (by decide) x hx y hy
      · exact apart 1 3 (by decide) x hx y hy
      · exact apart 2 3 (by decide) x hx y hy
  · cases (s.st a).readSlot <;> simp
  · intro x hx y hy
    obtain ⟨slot, hs, rfl⟩ : ∃ slot, (s.st a).readSlot = some slot ∧ slot.desc = y := by simpa using hy
    simp only [List.mem_append] at hx
    rcases hx with ((hx | hx) | hx) | hx
    all_goals exact fromSlot _ x hx slot hs

/-- The purge of a station with no delivery ends what its queues and its read slot held (R77). -/
theorem State.Placed.purge {r : Option Delivery} {s : State} (h : s.Placed ⟨r, [], none⟩) {a : StationId}
    (free : ∀ y, r = some y → y.station ≠ a) : (purge a s).Placed ⟨r, [], none⟩ := by
  let t := s.modSt a fun x => { x with queues := Vector.replicate 4 [], readSlot := none }
  have queues : ∀ b c, (t.st b).queue c = if b = a then [] else (s.st b).queue c := fun b c => by
    by_cases same : b = a
    · subst same; simp [t, StationRec.queue]
    · simp [t, same]
  have slots : ∀ b, (t.st b).readSlot = if b = a then none else (s.st b).readSlot := fun b => by
    by_cases same : b = a
    · subst same; simp [t]
    · simp [t, same]
  have sends : ∀ b, (t.st b).send = (s.st b).send := fun b => by
    by_cases same : b = a
    · subst same; simp [t]
    · simp [t, same]
  have emptied : t.Placed ⟨r, (s.st a).heldMessages, none⟩ := by
    refine h.takeOut rfl rfl rfl sends (fun b c => ?_) (fun b slot hs => ?_) (fun y hy => ⟨hy, ?_⟩)
      (h.heldMessages_nodup a) (fun d hd => ?_) (fun b c d hd away => ?_) (fun b slot hs away => ?_) fun y hy _ => hy
    · rw [queues]
      split
      · exact List.nil_sublist _
      · exact List.Sublist.refl _
    · rw [slots] at hs
      split at hs
      · simp at hs
      · exact hs
    · rw [queues, if_neg (free y hy)]
    · have here : (∃ m, s.msg d = some m ∧ m.state ≠ .filling) ∧
          (∀ b c, d ∈ (s.st b).queue c → b = a) ∧ ∀ b slot, (s.st b).readSlot = some slot → slot.desc = d → b = a := by
        rcases StationRec.mem_heldMessages.mp hd with ⟨c, mem⟩ | ⟨slot, hs, rfl⟩
        · obtain ⟨m, hm, -, -, state, -⟩ := h.queue_record mem
          exact ⟨⟨m, hm, state⟩, fun b k hb => (h.queue_unique hb mem).1,
            fun b slot hs same => absurd mem (same ▸ h.not_queued_of_slot hs)⟩
        · obtain ⟨m, hm, -, reading, -⟩ := h.reading a slot hs
          exact ⟨⟨m, hm, by simp [reading]⟩, fun b k hb => absurd hb (h.not_queued_of_slot hs),
            fun b x hx same => h.slot_unique hx hs same⟩
      obtain ⟨record, onlyQueue, onlySlot⟩ := here
      refine ⟨record, fun b c hb => ?_, fun b slot hs same => ?_⟩
      · rw [queues] at hb
        split at hb
        · simp at hb
        · exact absurd (onlyQueue b c hb) ‹_›
      · rw [slots] at hs
        split at hs
        · simp at hs
        · exact absurd (onlySlot b slot hs same) ‹_›
    · rw [queues, if_neg]
      · exact hd
      · rintro rfl
        exact away (StationRec.mem_heldMessages.mpr (.inl ⟨c, hd⟩))
    · rw [slots, if_neg]
      · exact hs
      · rintro rfl
        exact away (StationRec.mem_heldMessages.mpr (.inr ⟨slot, hs, rfl⟩))
  exact emptied.discardAll

end Sys2Proof.Machine
end

section
/-! How the places move: the start and the end of a delivery, TAKE, the enqueue attempt and POST (spec chapters 3, 4, 7). -/

namespace Sys2Proof.Machine

-- One proof at a time: many at once take more threads than the check allows.
set_option Elab.async false

/-! ### Deliveries -/

/-- The delivery record of message `m`, descriptor `x`, at the head of class `c` of station `a` (R126). -/
def State.deliveryFor (s : State) (a : StationId) (c : ClassId) (x : DescId) (m : Message) : Delivery where
  station := a
  cls := c
  desc := x
  slot := (s.st a).ring.produced.toNat % (s.st a).ring.latchedSlots
  header0 := headerWord0 m
  header1 := headerWord1 m
  next := .header0
  retries := 0

theorem State.formDelivery_eq_some {s : State} {a : StationId} {d : Delivery} : s.formDelivery a = some d ↔
    ∃ c x rest m, (s.st a).urgentClass = some c ∧ (s.st a).queue c = x :: rest ∧ s.msg x = some m ∧
      d = s.deliveryFor a c x m := by
  unfold State.formDelivery
  cases (s.st a).urgentClass with
  | none => simp
  | some c =>
    dsimp only
    cases queue : (s.st a).queue c with
    | nil =>
      dsimp only
      simp [queue]
    | cons x rest =>
      dsimp only
      cases hm : s.msg x with
      | none =>
        dsimp only
        simp [queue, hm]
      | some m =>
        dsimp only
        simp [queue, hm, State.deliveryFor, eq_comm]

theorem State.nextDelivery_eq_some {s : State} {d : Delivery} : s.nextDelivery = some d ↔
    ∃ a, (searchOrder s.rrPointer).find? s.eligible = some a ∧ s.formDelivery a = some d := by
  unfold State.nextDelivery
  cases (searchOrder s.rrPointer).find? s.eligible <;> simp

/-- The delivery that comes next is of the head of a queue. -/
theorem State.nextDelivery_head {s : State} {d : Delivery} (h : s.nextDelivery = some d) :
    ∃ m rest, (s.st d.station).queue d.cls = d.desc :: rest ∧ s.msg d.desc = some m := by
  obtain ⟨a, -, formed⟩ := State.nextDelivery_eq_some.mp h
  obtain ⟨c, x, rest, m, -, queue, hm, rfl⟩ := State.formDelivery_eq_some.mp formed
  exact ⟨m, rest, queue, hm⟩

theorem setMessageState_of_msg {d : DescId} {m : Message} {s : State} (hm : s.msg d = some m) (st : MessageState) :
    setMessageState d st s = s.setMsg d (some { m with state := st }) := by
  rw [setMessageState, hm]

/-- A queued record becomes QUEUED or DELIVERING, and the delivery is that of the record now DELIVERING, if there is one. -/
theorem State.Placed.restate {r r' : Option Delivery} {d : DescId} {m : Message} {st : MessageState} {s : State}
    (h : s.Placed ⟨r, [], none⟩) (hm : s.msg d = some m) (mem : d ∈ (s.st m.dest).queue m.cls)
    (state : st = .queued ∧ r' = none ∨ st = .delivering ∧ ∃ y, r' = some y ∧ y.desc = d ∧ y.station = m.dest ∧
      y.cls = m.cls ∧ ((s.st m.dest).queue m.cls).head? = some d)
    (before : ∀ y, r = some y → y.desc = d) : (setMessageState d st s).Placed ⟨r', [], none⟩ := by
  rw [setMessageState_of_msg hm]
  let t := s.setMsg d (some { m with state := st })
  have own : t.msg d = some { m with state := st } := State.msg_setMsg_same s d _
  have others : ∀ {x}, x ≠ d → t.msg x = s.msg x := fun {x} ne => State.msg_setMsg_ne s _ ne
  obtain ⟨m', hm', -, -, notFilling, notReading⟩ := h.queue_record mem
  obtain rfl := Option.some.inj (hm.symm.trans hm')
  have stays : st ≠ .filling ∧ st ≠ .reading := by
    rcases state with ⟨rfl, -⟩ | ⟨rfl, -⟩ <;> simp
  have here : ∀ y, r' = some y → st = .delivering ∧ y.desc = d ∧ y.station = m.dest ∧ y.cls = m.cls ∧
      ((s.st m.dest).queue m.cls).head? = some d := fun y hy => by
    rcases state with ⟨-, none⟩ | ⟨delivering, y', some, rest⟩
    · simp [none] at hy
    · obtain rfl := Option.some.inj (hy.symm.trans some)
      exact ⟨delivering, rest⟩
  have away : ∀ {x y}, x ≠ d → s.msg x = some y → t.msg x = some y := fun {x y} ne hx => (others ne).trans hx
  show t.Placed ⟨r', [], none⟩
  refine ⟨h.free.congr rfl (readMsg_of_put (g := (·.channel)) hm rfl rfl), fun b p x hb => ?_, fun b c => ?_, fun y hy => ?_,
    fun b slot hs => ?_, fun x y hx _ => ?_, fun l x => ?_, h.pledged, List.nodup_nil, by simp, by simp⟩
  · obtain ⟨y, hy, filled⟩ := h.copying b p x hb
    refine ⟨y, away (fun same => ?_) hy, filled⟩
    subst same
    obtain rfl := Option.some.inj (hm.symm.trans hy)
    exact notFilling filled.1
  · obtain ⟨nodup, each⟩ := h.queued b c
    refine ⟨nodup, fun x hx => ?_⟩
    obtain ⟨y, hy, dest, cls, rest⟩ := each x hx
    by_cases same : x = d
    · subst same
      obtain rfl := Option.some.inj (hm.symm.trans hy)
      exact ⟨_, own, dest, cls, by rcases state with ⟨rfl, -⟩ | ⟨rfl, -⟩ <;> simp⟩
    · exact ⟨y, away same hy, dest, cls, rest⟩
  · obtain ⟨delivering, rfl, station, cls, head⟩ := here y hy
    refine ⟨_, own, delivering, station.symm, cls.symm, ?_⟩
    show ((s.st y.station).queue y.cls).head? = _
    rw [station, cls]
    exact head
  · obtain ⟨y, hy, rest⟩ := h.reading b slot hs
    refine ⟨y, away (fun same => ?_) hy, rest⟩
    exact h.not_queued_of_slot hs (same ▸ mem)
  · by_cases same : x = d
    · subst same
      obtain rfl := Option.some.inj (own.symm.trans hx)
      unfold State.InPlace
      rcases state with ⟨rfl, -⟩ | ⟨rfl, y, some, rfl, -⟩
      · exact mem
      · exact ⟨y, some, rfl⟩
    · have hx : s.msg x = some y := (others same).symm.trans hx
      have place := h.placed x y hx (by simp)
      unfold State.InPlace at place ⊢
      cases hs : y.state with
      | delivering =>
        simp only [hs] at place
        obtain ⟨z, hz, rfl⟩ := place
        exact absurd (before z hz) same
      | filling => simp only [hs] at place ⊢; exact place
      | queued => simp only [hs] at place ⊢; exact place
      | reading => simp only [hs] at place ⊢; exact place
  · refine (h.carried l x).trans ⟨fun ⟨y, hy, lock, rest⟩ => ?_, fun ⟨y, hy, lock, rest⟩ => ?_⟩
    · by_cases same : x = d
      · subst same
        obtain rfl := Option.some.inj (hm.symm.trans hy)
        exact ⟨_, own, lock, stays.1⟩
      · exact ⟨y, away same hy, lock, rest⟩
    · by_cases same : x = d
      · subst same
        obtain rfl := Option.some.inj (own.symm.trans hy)
        exact ⟨m, hm, lock, notFilling⟩
      · exact ⟨y, (others same).symm.trans hy, lock, rest⟩

/-- A delivery starts from the head of a queue (R126). -/
theorem State.Placed.adopt {s : State} (h : s.Placed ⟨none, [], none⟩) {d : Delivery} (next : s.nextDelivery = some d) :
    (adoptDelivery d s).Placed ⟨some d, [], none⟩ := by
  obtain ⟨m, rest, queue, hm⟩ := State.nextDelivery_head next
  have mem : d.desc ∈ (s.st d.station).queue d.cls := by simp [queue]
  obtain ⟨m', hm', dest, cls, -, -⟩ := h.queue_record mem
  have started : (setMessageState d.desc .delivering s).Placed ⟨some d, [], none⟩ := by
    refine h.restate hm' ?_ (.inr ⟨rfl, d, rfl, rfl, dest.symm, cls.symm, ?_⟩) (by simp)
    · rwa [dest, cls]
    · simp [dest, cls, queue]
  exact started.frame (.of_locks rfl rfl rfl fun _ => ⟨rfl, rfl, rfl⟩)

/-- A delivery ends without completing: its message is QUEUED again (R131, R134). -/
theorem State.Placed.requeue {s : State} {d : Delivery} (h : s.Placed ⟨some d, [], none⟩) :
    (setMessageState d.desc .queued s).Placed ⟨none, [], none⟩ := by
  obtain ⟨m, hm, -, dest, cls, head⟩ := h.delivering d rfl
  refine h.restate hm ?_ (.inl ⟨rfl, rfl⟩) fun y hy => by rw [← Option.some.inj hy]
  rw [dest, cls]
  exact List.mem_of_mem_head? head

/-- The places are as they should be between two commands. -/
def State.PlacesRight (s : State) : Prop := s.Placed ⟨s.engine.delivery, [], none⟩

/-- An IDLE engine may start a delivery. -/
theorem State.Placed.startIfIdle {s : State} (h : s.PlacesRight) : (startIfIdle s).PlacesRight := by
  unfold Machine.startIfIdle
  split
  · rename_i d idle next
    have resting : s.Placed ⟨none, [], none⟩ := by
      have rests := h
      unfold State.PlacesRight at rests
      rwa [idle] at rests
    exact (resting.adopt next).frame (.of_locks rfl rfl rfl fun _ => ⟨rfl, rfl, rfl⟩)
  · exact h

/-- The bus is released, and the next delivery may start. -/
theorem State.Placed.releaseToIdle {s : State} (h : s.Placed ⟨none, [], none⟩) : (releaseToIdle s).PlacesRight := by
  have idle : ({ s with engine := .idle, gap := true } : State).PlacesRight :=
    h.frame (.of_locks rfl rfl rfl fun _ => ⟨rfl, rfl, rfl⟩)
  exact State.Placed.startIfIdle idle

/-- The burst goes on to the next delivery, or ends. -/
theorem State.Placed.advanceBurst {s : State} (h : s.Placed ⟨none, [], none⟩) : (advanceBurst s).PlacesRight := by
  have counted : ({ s with burst := s.burst + 1 } : State).Placed ⟨none, [], none⟩ :=
    h.frame (.of_locks rfl rfl rfl fun _ => ⟨rfl, rfl, rfl⟩)
  unfold Machine.advanceBurst
  split
  · unfold continueBurst
    split
    · rename_i next found
      exact (counted.adopt found).frame (.of_locks rfl rfl rfl fun _ => ⟨rfl, rfl, rfl⟩)
    · exact State.Placed.releaseToIdle counted
  · exact State.Placed.releaseToIdle counted

theorem State.PlacesRight.of_delivery {s : State} (h : s.PlacesRight) {d : Delivery} (engine : s.engine.delivery = some d) :
    s.Placed ⟨some d, [], none⟩ := engine ▸ h

theorem faultDelivery_keeps_places {s : State} (h : s.PlacesRight) {d : Delivery} {c : Cycle}
    (engine : s.engine = .transfer d c) (code : FaultCode) (addr : Word) : (faultDelivery d code addr s).PlacesRight := by
  have requeued := (h.of_delivery (d := d) (by rw [engine]; rfl)).requeue
  have released : ∀ u : State, u.Placed ⟨none, [], none⟩ →
      (releaseToIdle (recordFault d.station code addr u)).PlacesRight := fun u hu =>
    State.Placed.releaseToIdle (hu.frame (.of_locks (by simp) (by simp) (by simp) (by simp)))
  refine released _ ?_
  split
  · exact requeued.frame (.of_locks (by simp) (by simp) (by simp) (by simp))
  · refine requeued.frame (.of_locks rfl rfl rfl fun b => ?_)
    by_cases same : b = d.station
    · subst same; simp
    · simp [same]

theorem abandonDelivery_keeps_places {s : State} (h : s.PlacesRight) (a : StationId) :
    (abandonDelivery a s).PlacesRight := by
  unfold abandonDelivery
  split
  · rename_i d engine
    split
    · have requeued := (h.of_delivery (d := d) (by rw [engine]; rfl)).requeue
      refine State.Placed.releaseToIdle (requeued.frame (.of_locks rfl rfl rfl fun b => ?_))
      by_cases same : b = a
      · subst same
        simp only [State.st_modSt_same]
        split <;> exact ⟨rfl, rfl, rfl⟩
      · simp [same]
    · exact h
  · exact h

theorem completeDelivery_keeps_places {s : State} (h : s.PlacesRight) {d : Delivery} {c : Cycle}
    (engine : s.engine = .transfer d c) : (completeDelivery d s).PlacesRight := by
  have ended : (endMessage .delivered d.desc (advanceRing d s)).Placed ⟨none, [], none⟩ :=
    (h.of_delivery (d := d) (by rw [engine]; rfl)).advanceRing.endMessage .delivered (by simp)
  exact State.Placed.advanceBurst (ended.frame (.of_locks (by simp) (by simp) (by simp) (by simp)))

end Sys2Proof.Machine
end

section
/-! The places of the messages as a step invariant (spec chapter 1, R7): TAKE, the enqueue attempt, POST, the way to OFFLINE,
and O54. -/

namespace Sys2Proof.Machine

-- One proof at a time: many at once take more threads than the check allows.
set_option Elab.async false

theorem SamePlaces.modAt {s : State} {a : StationId} {f : StationRec → StationRec} (send : (f (s.st a)).send = (s.st a).send)
    (queues : (f (s.st a)).queues = (s.st a).queues) (readSlot : (f (s.st a)).readSlot = (s.st a).readSlot) :
    SamePlaces s (s.modSt a f) :=
  .of_locks rfl rfl rfl fun b => by
    by_cases e : b = a
    · subst e
      rw [State.st_modSt_same]
      exact ⟨send, queues, readSlot⟩
    · simp [e]

theorem SamePlaces.modSt (s : State) (a : StationId) (f : StationRec → StationRec)
    (same : ∀ r, (f r).send = r.send ∧ (f r).queues = r.queues ∧ (f r).readSlot = r.readSlot := by
      intro r; exact ⟨rfl, rfl, rfl⟩) : SamePlaces s (s.modSt a f) :=
  .modAt (same _).1 (same _).2.1 (same _).2.2

/-! ### TAKE -/

theorem passCarried_bound (carried : Option LockId) (l : LockId) (r : StationId) (s : State) :
    (passCarried carried r s).bound l = if carried = some l then none else s.bound l := by
  cases carried with
  | none => simp [passCarried]
  | some k => simp [passCarried, passLock_bound, eq_comm]

/-- The head of a queue, not being delivered, goes to an empty read slot (R68). -/
theorem State.Placed.takeHead {r : Option Delivery} {s : State} (h : s.Placed ⟨r, [], none⟩) {a : StationId} {c : ClassId}
    {d : DescId} {rest : List DescId} (queue : (s.st a).queue c = d :: rest) (empty : (s.st a).readSlot = none)
    (free : ∀ y, r = some y → y.station ≠ a) : (takeHead a c d s).Placed ⟨r, [], none⟩ := by
  have mem : d ∈ (s.st a).queue c := by simp [queue]
  have nodup : (d :: rest).Nodup := queue ▸ (h.queued a c).1
  obtain ⟨m, hm, dest, cls, notFilling, notReading⟩ := h.queue_record mem
  let u := (s.modSt a fun x => { x.setQueue c (x.queue c).tail with
    readSlot := some { desc := d, header0 := headerWord0 m, header1 := headerWord1 m } }).setMsg d
      (some { m with state := .reading, carriedLock := none })
  let t := Machine.takeHead a c d s
  have taken : t = passCarried m.carriedLock a u := by simp only [t, Machine.takeHead, hm]; rfl
  have own : t.msg d = some { m with state := .reading, carriedLock := none } := by simp [taken, u]
  have others : ∀ {x}, x ≠ d → t.msg x = s.msg x := fun {x} ne => by simp [taken, u, ne]
  have bound : ∀ l, t.bound l = if m.carriedLock = some l then none else s.bound l := fun l => by
    rw [taken, passCarried_bound]
    rfl
  have sends : ∀ b, t.sendOf none b = s.sendOf none b := fun b => by simp [State.sendOf, t]
  have queue_own : (t.st a).queue c = rest := by
    have same : (t.st a).queues = (u.st a).queues := by simp [taken]
    have inner : (u.st a).queue c = rest := by
      simp only [u, State.setMsg_st, State.st_modSt_same]
      exact (StationRec.queue_setQueue_same _ _ _).trans (by rw [queue]; rfl)
    rw [← inner, StationRec.queue, StationRec.queue, same]
  have queues : ∀ b k, ¬ (b = a ∧ k = c) → (t.st b).queue k = (s.st b).queue k := fun b k ne => by
    have same : (t.st b).queues = (u.st b).queues := by simp [taken]
    have inner : (u.st b).queue k = (s.st b).queue k := by
      by_cases eq : b = a
      · subst eq
        simp only [u, State.setMsg_st, State.st_modSt_same]
        exact StationRec.queue_setQueue_ne _ _ fun e => ne ⟨rfl, e⟩
      · simp [u, eq]
    rw [← inner, StationRec.queue, StationRec.queue, same]
  have slot_own : ∃ slot, (t.st a).readSlot = some slot ∧ slot.desc = d :=
    ⟨{ desc := d, header0 := headerWord0 m, header1 := headerWord1 m }, by simp [taken, u], rfl⟩
  have slots : ∀ b, b ≠ a → (t.st b).readSlot = (s.st b).readSlot := fun b ne => by simp [taken, u, ne]
  have carries : ∀ {l}, m.carriedLock = some l → s.bound l = some (.inr d) := fun {l} hl =>
    (h.carried l d).mpr ⟨m, hm, hl, notFilling⟩
  show t.Placed ⟨r, [], none⟩
  refine ⟨h.free.congr (by simp [t]) (readMsg_of_put (g := (·.channel)) hm (takeHead_messages hm a c) rfl),
    fun b p x hb => ?_, fun b k => ?_, fun y hy => ?_, fun b slot hs => ?_, fun x y hx _ => ?_, fun l x => ?_, fun l b => ?_,
    List.nodup_nil, by simp, by simp⟩
  · rw [sends] at hb
    obtain ⟨y, hy, filled⟩ := h.copying b p x hb
    refine ⟨y, (others fun same => ?_).trans hy, filled⟩
    subst same
    obtain rfl := Option.some.inj (hm.symm.trans hy)
    exact notFilling filled.1
  · obtain ⟨once, each⟩ := h.queued b k
    by_cases here : b = a ∧ k = c
    · obtain ⟨rfl, rfl⟩ := here
      rw [queue_own]
      obtain ⟨notIn, nodup⟩ := List.nodup_cons.mp nodup
      refine ⟨nodup, fun x hx => ?_⟩
      rw [others fun same => notIn (same ▸ hx)]
      exact each x (by simp [queue, hx])
    · rw [queues b k here]
      refine ⟨once, fun x hx => ?_⟩
      have ne : x ≠ d := fun same => here (h.queue_unique (same ▸ hx) mem)
      rw [others ne]
      exact each x hx
  · obtain ⟨z, hz, delivering, station, k, head⟩ := h.delivering y hy
    have away : y.station ≠ a := free y hy
    rw [others fun same => ?_, queues _ _ fun here => away here.1]
    · exact ⟨z, hz, delivering, station, k, head⟩
    · exact away (h.queue_unique (List.mem_of_mem_head? head) (same ▸ mem)).1
  · by_cases here : b = a
    · subst here
      obtain ⟨slot', hs', rfl⟩ := slot_own
      obtain rfl := Option.some.inj (hs.symm.trans hs')
      exact ⟨_, own, dest, rfl, rfl⟩
    · rw [slots b here] at hs
      rw [others fun same => h.not_queued_of_slot hs (same ▸ mem)]
      exact h.reading b slot hs
  · by_cases same : x = d
    · subst same
      obtain rfl := Option.some.inj (own.symm.trans hx)
      unfold State.InPlace
      simpa only [dest] using slot_own
    · have place := h.placed x y ((others same).symm.trans hx) (by simp)
      unfold State.InPlace at place ⊢
      cases hs : y.state with
      | filling => simpa only [hs, sends] using place
      | queued =>
        simp only [hs] at place ⊢
        by_cases here : y.dest = a ∧ y.cls = c
        · obtain ⟨rfl, rfl⟩ := here
          rw [queue, List.mem_cons] at place
          rw [queue_own]
          exact place.resolve_left same
        · rwa [queues _ _ here]
      | delivering => simpa only [hs] using place
      | reading =>
        simp only [hs] at place ⊢
        rw [slots]
        · exact place
        · rintro rfl
          obtain ⟨slot, hslot, -⟩ := place
          simp [empty] at hslot
  · rw [bound]
    split
    · rename_i hl
      refine ⟨fun no => absurd no (by simp), fun ⟨y, hy, lock, filling⟩ => ?_⟩
      by_cases same : x = d
      · subst same
        obtain rfl := Option.some.inj (own.symm.trans hy)
        simp at lock
      · have other := (h.carried l x).mpr ⟨y, (others same).symm.trans hy, lock, filling⟩
        simp [carries hl, Ne.symm same] at other
    · rename_i hl
      refine (h.carried l x).trans ⟨fun ⟨y, hy, lock, filling⟩ => ?_, fun ⟨y, hy, lock, filling⟩ => ?_⟩
      · refine ⟨y, (others fun same => ?_).trans hy, lock, filling⟩
        subst same
        obtain rfl := Option.some.inj (hm.symm.trans hy)
        exact hl lock
      · refine ⟨y, (others fun same => ?_).symm.trans hy, lock, filling⟩
        subst same
        obtain rfl := Option.some.inj (own.symm.trans hy)
        simp at lock
  · rw [bound, sends]
    split
    · rename_i hl
      refine ⟨fun no => absurd no (by simp), fun pledged => ?_⟩
      have other := (h.pledged l b).mpr pledged
      simp [carries hl] at other
    · exact h.pledged l b

/-! ### The enqueue attempt -/

/-- What the send state of a station in COPYING says of the message being filled. -/
theorem State.Placed.filling {r : Option Delivery} {s : State} (h : s.Placed ⟨r, [], none⟩) {a : StationId} {p : Post}
    {d : DescId} {m : Message} (copies : (s.st a).send = .copying p d) (hm : s.msg d = some m) :
    m.state = .filling ∧ m.source = a ∧ m.carriedLock = p.passLock := by
  obtain ⟨m', hm', state, source, -, -, -, -, -, -, lock, -⟩ := h.copying a p d ((s.sendOf_none a).trans copies)
  obtain rfl := Option.some.inj (hm.symm.trans hm')
  exact ⟨state, source, lock⟩

/-- The message of a copy that ends is QUEUED at the tail of its queue, its lock CARRIED (R62, R108). -/
theorem State.Placed.enqueued {r : Option Delivery} {s t : State} (h : s.Placed ⟨r, [], none⟩) {a : StationId} {p : Post}
    {d : DescId} {m : Message} (copies : (s.st a).send = .copying p d) (hm : s.msg d = some m)
    (freeDescs : t.freeDescs = s.freeDescs) (messages : t.messages = put s.messages d (some { m with state := .queued }))
    (sends : ∀ b, (t.st b).send = if b = a then .idle else (s.st b).send)
    (queues : ∀ b c, (t.st b).queue c = if b = m.dest ∧ c = m.cls then (s.st b).queue c ++ [d] else (s.st b).queue c)
    (slots : ∀ b, (t.st b).readSlot = (s.st b).readSlot)
    (bound : ∀ l, t.bound l = if m.carriedLock = some l then some (.inr d) else s.bound l) : t.Placed ⟨r, [], none⟩ := by
  obtain ⟨state, source, lock⟩ := h.filling copies hm
  have own : t.msg d = some { m with state := .queued } := by simp [State.msg, messages]
  have others : ∀ {x}, x ≠ d → t.msg x = s.msg x := fun {x} ne => by simp [State.msg, messages, ne]
  have sendOf : ∀ b, t.sendOf none b = if b = a then .idle else (s.st b).send := fun b => by rw [State.sendOf_none, sends]
  have pledges : ∀ {l}, m.carriedLock = some l → s.bound l = some (.inl a) := fun {l} hl =>
    (h.pledged l a).mpr ⟨p, by rw [State.sendOf_none, copies]; rfl, lock ▸ hl⟩
  have notQueued : ∀ b c, d ∉ (s.st b).queue c := fun b c hd => by
    obtain ⟨m', hm', -, -, notFilling, -⟩ := h.queue_record hd
    obtain rfl := Option.some.inj (hm.symm.trans hm')
    exact notFilling state
  refine ⟨h.free.congr freeDescs (readMsg_of_put (g := (·.channel)) hm messages rfl), fun b q x hb => ?_, fun b c => ?_,
    fun y hy => ?_, fun b slot hs => ?_, fun x y hx _ => ?_, fun l x => ?_, fun l b => ?_, List.nodup_nil, by simp, by simp⟩
  · rw [sendOf] at hb
    split at hb
    · simp at hb
    · rename_i ne
      obtain ⟨y, hy, filled⟩ := h.copying b q x ((s.sendOf_none b).trans hb)
      refine ⟨y, (others fun same => ?_).trans hy, filled⟩
      subst same
      obtain rfl := Option.some.inj (hm.symm.trans hy)
      exact ne (filled.2.1.symm.trans source)
  · obtain ⟨once, each⟩ := h.queued b c
    have kept : ∀ x ∈ (s.st b).queue c, ∃ y, t.msg x = some y ∧ y.dest = b ∧ y.cls = c ∧
        (y.state = .queued ∨ y.state = .delivering) := fun x hx => by
      rw [others fun same => notQueued b c (same ▸ hx)]
      exact each x hx
    rw [queues]
    split
    · rename_i here
      refine ⟨List.nodup_append.mpr ⟨once, by simp, fun x hx y hy same => ?_⟩, fun x hx => ?_⟩
      · obtain rfl := List.mem_singleton.mp hy
        exact notQueued b c (same ▸ hx)
      · rcases List.mem_append.mp hx with old | new
        · exact kept x old
        · obtain rfl := List.mem_singleton.mp new
          exact ⟨_, own, here.1.symm, here.2.symm, .inl rfl⟩
    · exact ⟨once, kept⟩
  · obtain ⟨z, hz, delivering, station, k, head⟩ := h.delivering y hy
    refine ⟨z, (others fun same => notQueued _ _ (same ▸ List.mem_of_mem_head? head)).trans hz, delivering, station, k, ?_⟩
    rw [queues]
    split
    · rw [List.head?_append, head]
      rfl
    · exact head
  · rw [slots] at hs
    obtain ⟨y, hy, rest⟩ := h.reading b slot hs
    refine ⟨y, (others fun same => ?_).trans hy, rest⟩
    rw [same, hm] at hy
    obtain rfl := Option.some.inj hy
    simp [state] at rest
  · by_cases same : x = d
    · subst same
      obtain rfl := Option.some.inj (own.symm.trans hx)
      unfold State.InPlace
      dsimp only
      rw [queues, if_pos ⟨rfl, rfl⟩]
      simp
    · have place := h.placed x y ((others same).symm.trans hx) (by simp)
      unfold State.InPlace at place ⊢
      cases hs : y.state with
      | filling =>
        simp only [hs] at place ⊢
        obtain ⟨q, hq⟩ := place
        rw [State.sendOf_none] at hq
        refine ⟨q, ?_⟩
        rw [sendOf, if_neg, hq]
        rintro rfl
        rw [copies] at hq
        exact same (SendState.copying.inj hq).2.symm
      | queued =>
        simp only [hs] at place ⊢
        rw [queues]
        split
        · exact List.mem_append_left _ place
        · exact place
      | delivering => simpa only [hs] using place
      | reading => simpa only [hs, slots] using place
  · rw [bound]
    split
    · rename_i hl
      refine ⟨fun eq => ?_, fun ⟨y, hy, lock, filling⟩ => ?_⟩
      · obtain rfl := Sum.inr.inj (Option.some.inj eq)
        exact ⟨_, own, hl, by simp⟩
      · by_cases same : x = d
        · rw [same]
        · have other := (h.carried l x).mpr ⟨y, (others same).symm.trans hy, lock, filling⟩
          simp [pledges hl] at other
    · rename_i hl
      refine (h.carried l x).trans ⟨fun ⟨y, hy, lock, filling⟩ => ?_, fun ⟨y, hy, lock, filling⟩ => ?_⟩
      · refine ⟨y, (others fun same => ?_).trans hy, lock, filling⟩
        subst same
        obtain rfl := Option.some.inj (hm.symm.trans hy)
        exact filling state
      · refine ⟨y, (others fun same => ?_).symm.trans hy, lock, filling⟩
        subst same
        obtain rfl := Option.some.inj (own.symm.trans hy)
        exact hl lock
  · rw [bound, sendOf]
    split
    · rename_i hl
      refine ⟨fun no => absurd no (by simp), fun ⟨q, hq, lock⟩ => ?_⟩
      split at hq
      · simp [SendState.post] at hq
      · rename_i ne
        have other := (h.pledged l b).mpr ⟨q, by rwa [State.sendOf_none], lock⟩
        rw [pledges hl] at other
        exact absurd (Sum.inl.inj (Option.some.inj other)).symm ne
    · rename_i hl
      split
      · rename_i same
        subst same
        refine ⟨fun hb => ?_, by simp [SendState.post]⟩
        obtain ⟨q, hq, passes⟩ := (h.pledged l b).mp hb
        rw [State.sendOf_none, copies] at hq
        obtain rfl : p = q := Option.some.inj hq
        exact absurd (lock.trans passes) hl
      · rw [← State.sendOf_none]
        exact h.pledged l b

end Sys2Proof.Machine
end

section
/-! The places of the messages as a step invariant, continued: the failed enqueue, POST, the way to OFFLINE, RESET, the timers,
and O54. -/

namespace Sys2Proof.Machine

-- One proof at a time: many at once take more threads than the check allows.
set_option Elab.async false

/-! ### The failed enqueue -/

/-- The message of a copy that fails leaves its place, its lock back with the sender (R53, R93). -/
theorem State.Placed.leaveCopy {r : Option Delivery} {s : State} (h : s.Placed ⟨r, [], none⟩) {a : StationId} {p : Post}
    {d : DescId} {m : Message} (copies : (s.st a).send = .copying p d) (hm : s.msg d = some m) :
    (setLockState m.carriedLock (.held m.source) s).Placed ⟨r, [d], some a⟩ := by
  obtain ⟨state, source, lock⟩ := h.filling copies hm
  let t := setLockState m.carriedLock (.held m.source) s
  have sends : ∀ b, t.sendOf (some a) b = if b = a then .idle else (s.st b).send := fun b => by
    simp [State.sendOf, t, eq_comm]
  have was : ∀ b, s.sendOf none b = (s.st b).send := s.sendOf_none
  have bound : ∀ l, t.bound l = if m.carriedLock = some l then none else s.bound l := fun l =>
    setLockState_bound m.carriedLock (.held m.source) s l
  have msg : ∀ x, t.msg x = s.msg x := fun x => by simp [t]
  have queues : ∀ b c, (t.st b).queue c = (s.st b).queue c := fun b c => by simp [StationRec.queue, t]
  have slots : ∀ b, (t.st b).readSlot = (s.st b).readSlot := fun b => by simp [t]
  have pledges : ∀ {l}, m.carriedLock = some l → s.bound l = some (.inl a) := fun {l} hl =>
    (h.pledged l a).mpr ⟨p, by rw [was, copies]; rfl, lock ▸ hl⟩
  show t.Placed ⟨r, [d], some a⟩
  refine ⟨h.free.congr (by simp [t]) (State.channelOf_of_messages (by simp [t])), fun b q x hb => ?_, ?_, ?_, ?_,
    fun x y hx out => ?_, fun l x => ?_, fun l b => ?_, by simp, fun x hx => ?_, fun b hb q => ?_⟩
  · rw [sends] at hb
    split at hb
    · simp at hb
    · rw [msg]
      exact h.copying b q x ((was b).trans hb)
  · simpa only [queues, msg] using h.queued
  · simpa only [queues, msg] using h.delivering
  · simpa only [slots, msg] using h.reading
  · have place := h.placed x y ((msg x).symm.trans hx) (by simp)
    unfold State.InPlace at place ⊢
    cases hs : y.state with
    | filling =>
      simp only [hs] at place ⊢
      obtain ⟨q, hq⟩ := place
      rw [was] at hq
      refine ⟨q, ?_⟩
      rw [sends, if_neg, hq]
      intro same
      rw [same, copies] at hq
      exact out (by simp [(SendState.copying.inj hq).2])
    | queued => simpa only [hs, queues] using place
    | delivering => simpa only [hs] using place
    | reading => simpa only [hs, slots] using place
  · rw [bound, msg]
    split
    · rename_i hl
      refine ⟨fun no => absurd no (by simp), fun carried => ?_⟩
      have other := (h.carried l x).mpr carried
      simp [pledges hl] at other
    · exact h.carried l x
  · rw [bound, sends]
    split
    · rename_i hl
      refine ⟨fun no => absurd no (by simp), fun ⟨q, hq, passes⟩ => ?_⟩
      split at hq
      · simp [SendState.post] at hq
      · rename_i ne
        have other := (h.pledged l b).mpr ⟨q, by rwa [was], passes⟩
        rw [pledges hl] at other
        exact absurd (Sum.inl.inj (Option.some.inj other)).symm ne
    · rename_i hl
      split
      · rename_i same
        subst same
        refine ⟨fun hb => ?_, by simp [SendState.post]⟩
        obtain ⟨q, hq, passes⟩ := (h.pledged l b).mp hb
        rw [was, copies] at hq
        obtain rfl : p = q := Option.some.inj hq
        exact absurd (lock.trans passes) hl
      · rw [← was]
        exact h.pledged l b
  · obtain rfl := List.mem_singleton.mp hx
    refine ⟨m, (msg x).trans hm, fun b q hb => ?_, fun b c hb => ?_, fun b slot hs same => ?_, fun _ l hl => ?_⟩
    · rw [sends] at hb
      split at hb
      · simp at hb
      · obtain ⟨-, other, -⟩ := h.filling hb hm
        exact absurd (other.symm.trans source) ‹_›
    · rw [queues] at hb
      obtain ⟨m', hm', -, -, notFilling, -⟩ := h.queue_record hb
      obtain rfl := Option.some.inj (hm.symm.trans hm')
      exact notFilling state
    · rw [slots] at hs
      obtain ⟨y, hy, -, reading, -⟩ := h.reading b slot hs
      rw [same, hm] at hy
      obtain rfl := Option.some.inj hy
      simp [state] at reading
    · rw [bound, if_pos hl]
  · obtain rfl := Option.some.inj hb
    simp [t, copies]

/-- A copy that fails its late check ends with its message freed (R53). -/
theorem State.Placed.failedEnqueue {r : Option Delivery} {s : State} (h : s.Placed ⟨r, [], none⟩) {a : StationId} {p : Post}
    {d : DescId} {m : Message} (copies : (s.st a).send = .copying p d) (hm : s.msg d = some m) (o : SendOutcome) :
    (endPost a p o (endFailedEnqueue d s)).Placed ⟨r, [], none⟩ := by
  have left := h.leaveCopy copies hm
  have freed := (left.freed (u := setLockState m.carriedLock (.held m.source) s) (m := m) (by simpa using hm) rfl rfl
    (fun _ => ⟨rfl, rfl, rfl⟩) fun l => ?_).examine
  · rw [endFailedEnqueue_of_msg hm]
    refine freed.reframe rfl rfl rfl rfl (fun b => ?_) (fun b => by simp) (fun _ => rfl) (by simp)
    by_cases same : b = a
    · subst same
      simp [State.sendOf, endPost]
    · simp [State.sendOf, endPost, same, Ne.symm same]
  · rw [setLockState_bound]
    split
    · rfl
    · rfl

theorem SamePlaces.setSource (a : StationId) (n : SourceId) (s : State) : SamePlaces s (setSource a n s) :=
  .of_locks (by simp) (by simp) (by simp) (by simp)

theorem attemptEnqueue_keeps_places {r : Option Delivery} {s : State} (h : s.Placed ⟨r, [], none⟩) {a : StationId}
    {p : Post} {d : DescId} {m : Message} (copies : (s.st a).send = .copying p d) (hm : s.msg d = some m) :
    (attemptEnqueue a p d m s).Placed ⟨r, [], none⟩ := by
  unfold attemptEnqueue
  split
  · let t := setSource a srcSent (endPost a p .ok (setLockState m.carriedLock (.carried d) (enqueue d m s)))
    refine h.enqueued (t := t) copies hm (by simp [t]) (by simp [t, enqueue_messages]) (fun b => ?_) (fun b c => ?_)
      (by simp [t]) fun l => ?_
    · by_cases same : b = a
      · subst same; simp [t, endPost]
      · simp [t, endPost, same]
    · have queues : (t.st b).queues = ((s.modSt m.dest fun x => x.setQueue m.cls (x.queue m.cls ++ [d])).st b).queues := by
        unfold t enqueue
        dsimp only
        split <;> simp
      have appended : (t.st b).queue c = ((s.modSt m.dest fun x => x.setQueue m.cls (x.queue m.cls ++ [d])).st b).queue c := by
        rw [StationRec.queue, queues]
        rfl
      rw [appended]
      by_cases dest : b = m.dest
      · subst dest
        by_cases cls : c = m.cls
        · subst cls; simp
        · simp [cls]
      · simp [dest]
    · have locks : t.locks = (setLockState m.carriedLock (.carried d) (enqueue d m s)).locks := by simp [t]
      rw [State.bound_of_locks locks, setLockState_bound, State.bound_of_locks (s := s) (by simp)]
      rfl
  · exact (h.failedEnqueue copies hm _).frame (.setSource _ _ _)

/-! ### POST -/

/-- An accepted post waits for room, its lock PLEDGED (R45, R106). -/
theorem State.Placed.pledge {r : Option Delivery} {s t : State} (h : s.Placed ⟨r, [], none⟩) {a : StationId} {p : Post}
    (idle : (s.st a).send = .idle) (held : ∀ l, p.passLock = some l → s.bound l = none)
    (freeDescs : t.freeDescs = s.freeDescs) (messages : t.messages = s.messages)
    (sends : ∀ b, (t.st b).send = if b = a then .awaitRoom p else (s.st b).send)
    (stations : ∀ b, (t.st b).queues = (s.st b).queues ∧ (t.st b).readSlot = (s.st b).readSlot)
    (bound : ∀ l, t.bound l = if p.passLock = some l then some (.inl a) else s.bound l) : t.Placed ⟨r, [], none⟩ := by
  have msg : ∀ d, t.msg d = s.msg d := fun d => by simp only [State.msg, messages]
  have queues : ∀ b c, (t.st b).queue c = (s.st b).queue c := fun b c => by simp only [StationRec.queue, (stations b).1]
  have slots : ∀ b, (t.st b).readSlot = (s.st b).readSlot := fun b => (stations b).2
  have copies : ∀ b q d, t.sendOf none b = .copying q d ↔ s.sendOf none b = .copying q d := fun b q d => by
    rw [State.sendOf_none, State.sendOf_none, sends]
    split
    · rename_i same
      subst same
      simp [idle]
    · rfl
  refine ⟨h.free.congr freeDescs (State.channelOf_of_messages messages), ?_, ?_, ?_, ?_, fun x y hx out => ?_,
    fun l x => ?_, fun l b => ?_, List.nodup_nil, by simp, by simp⟩
  · simpa only [copies, msg] using h.copying
  · simpa only [queues, msg] using h.queued
  · simpa only [queues, msg] using h.delivering
  · simpa only [slots, msg] using h.reading
  · have place := h.placed x y (msg x ▸ hx) out
    unfold State.InPlace at place ⊢
    simpa only [copies, queues, slots] using place
  · rw [bound, msg]
    split
    · rename_i hl
      refine ⟨fun no => absurd no (by simp), fun carried => ?_⟩
      have other := (h.carried l x).mpr carried
      simp [held l hl] at other
    · exact h.carried l x
  · rw [bound, State.sendOf_none, sends]
    by_cases same : b = a
    · subst same
      have none_before : s.bound l ≠ some (.inl b) := fun hb => by
        obtain ⟨q, hq, -⟩ := (h.pledged l b).mp hb
        simp [State.sendOf_none, idle, SendState.post] at hq
      split <;> simp_all [SendState.post]
    · rw [if_neg same, ← State.sendOf_none, ← h.pledged l b]
      split
      · rename_i hl
        simp [held l hl, Ne.symm same]
      · rfl

theorem bound_acceptPost (a : StationId) (p : Post) (s : State) (l : LockId) :
    (acceptPost a p s).bound l = if p.passLock = some l then some (.inl a) else s.bound l := by
  rw [State.bound_of_locks (acceptPost_locks a p s), setLockState_bound]
  rfl

theorem bound_of_checkPost {a : StationId} {ch : ChannelId} {len : Fin 128} {pass : Bool} {k : LockId} {s : State}
    (h : checkPost a ch len pass k s = none) :
    (s.st a).send = .idle ∧ ∀ l, (postRecord a ch len pass k s).passLock = some l → s.bound l = none := by
  unfold checkPost at h
  split at h
  · simp at h
  · rename_i idle
    refine ⟨by simpa using idle, fun l hl => ?_⟩
    obtain ⟨rfl, rfl⟩ : pass = true ∧ k = l := by
      cases pass <;> simp [postRecord] at hl ⊢
      exact hl
    have checked : checkPassedLock a k s = none := by
      repeat' split at h
      all_goals simp_all
    unfold checkPassedLock at checked
    unfold State.bound
    cases hs : (s.lock k).state with
    | pledged o =>
      rw [hs] at checked
      dsimp only at checked
      split at checked <;> simp at checked
    | carried d => simp [hs] at checked
    | free => rfl
    | held o => rfl

theorem State.Placed.joinRoomQueue {r : Option Delivery} {s : State} (h : s.Placed ⟨r, [], none⟩) {a : StationId} {p : Post}
    (idle : (s.st a).send = .idle) (held : ∀ l, p.passLock = some l → s.bound l = none) :
    (joinRoomQueue a p (acceptPost a p s)).Placed ⟨r, [], none⟩ := by
  refine h.pledge idle held (by simp) (by simp) (fun b => ?_) (by simp) fun l => ?_
  · by_cases same : b = a
    · subst same; simp [Machine.joinRoomQueue]
    · simp [same]
  · rw [← bound_acceptPost]
    exact State.bound_of_locks (by simp) l

theorem allocate_station {a : StationId} {p : Post} {s : State} {d : DescId} {rest : List DescId}
    (free : s.freeDescs = d :: rest) : (allocate a p s).st a = { s.st a with send := .copying p d } := by
  rw [allocate_eq free]
  simp [State.st]

/-- A post given room at once is a post that waits and is granted. -/
theorem State.Placed.postNow {r : Option Delivery} {s : State} (h : s.Placed ⟨r, [], none⟩) {a : StationId} {p : Post}
    (idle : (s.st a).send = .idle) (held : ∀ l, p.passLock = some l → s.bound l = none) {d : DescId} {rest : List DescId}
    (room : s.freeDescs = d :: rest) : (Machine.allocate a p (acceptPost a p s)).Placed ⟨r, [], none⟩ := by
  have waits : ((Machine.joinRoomQueue a p (acceptPost a p s)).st a).send = .awaitRoom p := by simp [Machine.joinRoomQueue]
  have waiting : (Machine.joinRoomQueue a p (acceptPost a p s)).freeDescs = d :: rest := by simp [room]
  have accepted : (acceptPost a p s).freeDescs = d :: rest := by simp [room]
  refine ((h.joinRoomQueue idle held).allocate waits).frame (.of_locks ?_ ?_ (by simp) fun b => ?_)
  · rw [allocate_eq accepted, allocate_eq waiting]
  · rw [allocate_eq accepted, allocate_eq waiting]
    simp
  · by_cases same : b = a
    · subst same
      rw [allocate_station accepted, allocate_station waiting]
      simp
    · simp [same]

/-! ### The way to OFFLINE, RESET and the timers -/

theorem quiesce_keeps_places {s : State} (h : s.PlacesRight) (a : StationId) : (quiesce a s).PlacesRight := by
  unfold quiesce
  split
  · rename_i quiet
    obtain ⟨-, -, free⟩ := quiet
    have offline : (s.modSt a fun r => { r with state := .offline }).Placed ⟨s.engine.delivery, [], none⟩ :=
      h.frame (.modSt s a _)
    have purged : (purge a (s.modSt a fun r => { r with state := .offline })).Placed ⟨s.engine.delivery, [], none⟩ := by
      refine offline.purge fun y hy same => ?_
      have delivers : s.delivering a = true := (s.delivering_iff a).mpr ⟨y, hy, same⟩
      simp [delivers] at free
    have released := purged.frame
      (t := releaseHoldings a (purge a (s.modSt a fun r => { r with state := .offline })))
      ⟨by simp, by simp, by simp, releaseHoldings_bound a _⟩
    unfold State.PlacesRight
    rw [(enterOffline_frame a s).2.2.1]
    exact released.frame (.modSt _ a _)
  · exact h

theorem withdrawn_keeps_places {s : State} (h : s.PlacesRight) (a : StationId) : (s.withdrawn a).PlacesRight := by
  have quiescing : (s.modSt a fun r => { r with state := .quiescing }).Placed ⟨s.engine.delivery, [], none⟩ :=
    h.frame (.modSt s a _)
  have ended := quiescing.removeWaiting (fun e => e.station == a) .cancelled false
  have left : (s.leaving a).PlacesRight := by
    have engine : (s.leaving a).engine = s.engine := by simp [State.leaving]
    unfold State.PlacesRight
    rw [engine]
    exact ended.frame ⟨by simp [State.leaving], by simp [State.leaving], by simp [State.leaving], leaveWait_bound a _ _⟩
  exact (abandonDelivery_keeps_places left a).frame (.modSt _ a _)

theorem enterQuiescing_keeps_places {s : State} (h : s.PlacesRight) (a : StationId) : (enterQuiescing a s).PlacesRight := by
  rw [enterQuiescing_eq]
  exact quiesce_keeps_places (withdrawn_keeps_places h a) a

theorem State.PlacesRight.frame {s t : State} (h : s.PlacesRight) (engine : t.engine.delivery = s.engine.delivery)
    (same : SamePlaces s t) : t.PlacesRight := by
  unfold State.PlacesRight
  rw [engine]
  exact State.Placed.frame h same

theorem expireRoomWait_keeps_places {s : State} (h : s.PlacesRight) (a : StationId) : (expireRoomWait a s).PlacesRight := by
  unfold expireRoomWait
  split
  · have ended := State.Placed.removeWaiting h (fun e => e.station == a) .timeout true
    unfold State.PlacesRight
    simpa using ended
  · exact h

theorem expireLockWait_keeps_places {s : State} (h : s.PlacesRight) (a : StationId) : (expireLockWait a s).PlacesRight := by
  unfold expireLockWait
  split
  · exact (h.frame (by simp) ⟨by simp, by simp, by simp, leaveWait_bound a _ _⟩).frame (by simp) (.setSource a _ _)
  · exact h

theorem expireResponse_keeps_places {s : State} (h : s.PlacesRight) : (expireResponse s).PlacesRight := by
  unfold expireResponse
  split
  · split
    · exact faultDelivery_keeps_places h ‹_› _ _
    · exact h
  · exact h

theorem expireDue_keeps_places {s : State} (h : s.PlacesRight) : (expireDue s).PlacesRight :=
  expireResponse_keeps_places (foldl_keeps (P := State.PlacesRight) (fun _ a ht => expireLockWait_keeps_places ht a) _ _
    (foldl_keeps (P := State.PlacesRight) (fun _ a ht => expireRoomWait_keeps_places ht a) _ _ h))

theorem tickAll_keeps_places {s : State} (h : s.PlacesRight) : (tickAll s).PlacesRight :=
  h.frame (by simp [tickAll]) (.of_locks rfl rfl rfl fun b => by simp [tickAll, State.st, StationRec.ticked])

theorem clkPeriod_keeps_places {s : State} (h : s.PlacesRight) : (clkPeriod s).PlacesRight := by
  have expired := expireDue_keeps_places h
  have counted : ∀ u : State, u.PlacesRight → ∀ n, ({ u with tickCount := n } : State).PlacesRight := fun u hu n =>
    hu.frame rfl (.of_locks rfl rfl rfl fun _ => ⟨rfl, rfl, rfl⟩)
  unfold clkPeriod
  dsimp only
  split
  · exact expireDue_keeps_places (tickAll_keeps_places expired)
  · exact counted _ expired _

theorem reset_messagesPlaced : State.reset.MessagesPlaced := by
  have unused : ∀ d, State.reset.msg d = none := fun d => by simp [State.msg, State.reset]
  have stations : ∀ a, State.reset.st a = StationRec.reset := fun a => by simp [State.st, State.reset]
  have locks : ∀ l, (State.reset.lock l).state = .free := fun l => by simp [State.lock, State.reset]
  have queues : ∀ c, StationRec.reset.queue c = [] := fun c => by simp [StationRec.queue, StationRec.reset]
  constructor
  case copying => simp [stations, StationRec.reset]
  case queued => simp [stations, queues]
  case delivering => simp [State.reset, EngineState.delivery]
  case reading => simp [stations, StationRec.reset]
  case placed => simp [unused]
  case carried => simp [unused, locks]
  case pledged => simp [stations, locks, StationRec.reset, SendState.post]

/-! ### O54 -/

theorem reset_placesRight (v : StationId) (q : List Instr) :
    ({ State.reset with supervisor := v, pending := q } : State).PlacesRight := by
  have apart : ∀ s : State, s.PlacesRight → ({ s with supervisor := v, pending := q } : State).PlacesRight := fun s h =>
    h.frame rfl (.of_locks rfl rfl rfl fun _ => ⟨rfl, rfl, rfl⟩)
  exact apart _ ((State.placed_view_iff _).mpr ⟨reset_storeConserved.descsFree, reset_messagesPlaced⟩)

/-- Every effect keeps the messages in their places; TAKE needs its station's ring to have no delivery. -/
theorem Effect.keeps_places {i : Instr} {s t : State} (h : Effect i s t) (places : s.PlacesRight) (rings : s.RingsSound) :
    t.PlacesRight := by
  cases h
  case nothing => exact places
  case setting a f same words => exact places.frame rfl (.modAt same.send same.queues same.readSlot)
  case staging a k w => exact places.frame rfl (.modSt s a _)
  case register a k w =>
    exact places.frame rfl (.modSt s a _ fun r => by unfold StationRec.storePlain; split <;> exact ⟨rfl, rfl, rfl⟩)
  case fault a code detail => exact places.frame (by simp) (.of_locks (by simp) (by simp) (by simp) (by simp))
  case clearFlags a v => exact places.frame rfl (.modSt s a _)
  case attach a _ _ => exact places.frame rfl (.modSt s a _)
  case retire a _ _ _ => exact enterQuiescing_keeps_places places a
  case postNow a ch len pass l _ _ checked _ fits =>
    obtain ⟨idle, held⟩ := bound_of_checkPost checked
    obtain ⟨d, rest, room⟩ : ∃ d rest, s.freeDescs = d :: rest := by
      cases free : s.freeDescs with
      | nil => simp [State.fits, free] at fits
      | cons d rest => exact ⟨d, rest, rfl⟩
    have granted := State.Placed.postNow places idle held room
    unfold State.PlacesRight
    simpa using granted
  case postWait a ch len pass l _ _ checked =>
    obtain ⟨idle, held⟩ := bound_of_checkPost checked
    have waiting := State.Placed.joinRoomQueue places idle held
    unfold State.PlacesRight
    simpa using waiting
  case endWaiting a o sent =>
    have ended := State.Placed.removeWaiting places (fun e => e.station == a) o sent
    unfold State.PlacesRight
    simpa using ended
  case closeChannel ch =>
    have closed : (s.modChan ch fun e => { e with state := .closed }).PlacesRight :=
      places.frame rfl (.of_locks rfl rfl rfl fun _ => ⟨rfl, rfl, rfl⟩)
    have ended := State.Placed.removeWaiting closed (fun e => e.channel == ch) .closed true
    unfold State.PlacesRight
    simpa using ended
  case take a c d rest _ off empty queue =>
    have taken := State.Placed.takeHead places queue empty fun y hy same => by
      have busy := (rings a).2.1 ((s.delivering_iff a).mpr ⟨y, hy, same⟩)
      simp [off] at busy
    unfold State.PlacesRight
    simpa using taken
  case release a slot _ holds =>
    obtain ⟨m, hm, -, -, noLock⟩ := places.reading a slot holds
    have ended := (State.Placed.emptySlot places holds).endMessage .released fun _ m' hm' => by
      obtain rfl := Option.some.inj (hm.symm.trans hm')
      exact noLock
    unfold State.PlacesRight
    simpa using ended
  case queueLimit a c limit => exact places.frame rfl (.modSt s a _)
  case takeLock a l _ free =>
    refine places.frame rfl ⟨rfl, rfl, fun _ => ⟨rfl, rfl, rfl⟩, fun k => ?_⟩
    rw [Machine.takeLock, setLockState_bound]
    split
    · rename_i same
      obtain rfl := Option.some.inj same
      simp [State.bound, free, LockState.bound]
    · rfl
  case joinWaiters a l _ =>
    refine places.frame (by simp) ⟨by simp, by simp, by simp, fun k => ?_⟩
    by_cases same : k = l
    · subst same; simp [State.bound, Machine.joinWaiters]
    · simp [State.bound, Machine.joinWaiters, same]
  case handoff a l held =>
    refine places.frame (by simp) ⟨by simp, by simp, by simp, fun k => ?_⟩
    rw [handoff_bound]
    split
    · rename_i same
      subst same
      simp [State.bound, held, LockState.bound]
    · rfl
  case revoke a l held =>
    refine places.frame (by simp) ⟨by simp, by simp, by simp, fun k => ?_⟩
    rw [handoff_bound]
    split
    · rename_i same
      subst same
      simp [State.bound, held, LockState.bound]
    · exact State.bound_of_locks (by simp) k
  case cancelWait a => exact places.frame (by simp) ⟨by simp, by simp, by simp, leaveWait_bound a _ s⟩
  case popConfirm a e rest _ => exact places.frame rfl (.modSt s a _)
  case clearOverflow a => exact places.frame rfl (.modSt s a _)
  case setTick | setEngine | openChannel | reassert => exact places.frame rfl (.of_locks rfl rfl rfl fun _ => ⟨rfl, rfl, rfl⟩)
  case ring a f _ _ => exact State.Placed.startIfIdle (places.frame rfl (.modSt s a _))
  case disabling a _ => exact places.frame rfl (.modSt s a _)
  case disableRing a _ => exact places.frame (by simp) (.of_locks (by simp) (by simp) (by simp) (by simp))
  case acknowledge a n => exact places.frame rfl (.modSt s a _)
  case endService a => exact places.frame rfl (.modSt s a _)
  case reset v => exact reset_placesRight v s.pending
  case tick => exact tickAll_keeps_places (expireDue_keeps_places places)
  case roomTimer a => exact expireRoomWait_keeps_places places a
  case waitTimer a => exact expireLockWait_keeps_places places a
  case responseTimer => exact expireResponse_keeps_places places
  case copyCompletion a p d m copies hm =>
    let u : State := { s with cellStore := copyPayload m.cells m.length (s.st a).staging s.cellStore }
    have copied : u.PlacesRight := places.frame rfl (.of_locks rfl rfl rfl fun _ => ⟨rfl, rfl, rfl⟩)
    have tried : (attemptEnqueue a p d m u).PlacesRight := by
      have attempt := attemptEnqueue_keeps_places copied (a := a) (p := p) (d := d) (m := m) copies hm
      unfold State.PlacesRight
      rwa [(attemptEnqueue_frame a p d m u).2.2.1]
    exact quiesce_keeps_places (State.Placed.startIfIdle tried) a
  case busGrant d engine =>
    exact places.frame (by rw [engine]; rfl) (.of_locks rfl rfl rfl fun _ => ⟨rfl, rfl, rfl⟩)
  case nextWrite d c w engine =>
    have same : (issueWrite { d with next := w } s).Placed ⟨s.engine.delivery, [], none⟩ :=
      State.Placed.frame places (.of_locks rfl rfl rfl fun _ => ⟨rfl, rfl, rfl⟩)
    exact same.redelivered rfl rfl (fun r hr => ⟨d, by rw [engine]; rfl, by obtain rfl := Option.some.inj hr; exact ⟨rfl, rfl, rfl⟩⟩)
      fun r hr => ⟨_, rfl, by rw [engine] at hr; obtain rfl := Option.some.inj hr; rfl⟩
  case complete d c engine => exact completeDelivery_keeps_places places engine
  case faultDelivery d c code addr engine => exact faultDelivery_keeps_places places engine code addr
  case retry d c engine =>
    have same : ({ s with engine := .busWait { d with retries := d.retries + 1 }, gap := true } : State).Placed
        ⟨s.engine.delivery, [], none⟩ := State.Placed.frame places (.of_locks rfl rfl rfl fun _ => ⟨rfl, rfl, rfl⟩)
    exact same.redelivered rfl rfl (fun r hr => ⟨d, by rw [engine]; rfl, by obtain rfl := Option.some.inj hr; exact ⟨rfl, rfl, rfl⟩⟩)
      fun r hr => ⟨_, rfl, by rw [engine] at hr; obtain rfl := Option.some.inj hr; rfl⟩

theorem Answered.keeps_places {u t : State} (h : Answered u t) (places : u.PlacesRight) : t.PlacesRight := by
  cases h
  case same => exact places
  case access x => exact places.frame rfl (.of_locks rfl rfl rfl fun _ => ⟨rfl, rfl, rfl⟩)
  case command a result x =>
    have named : (u.modSt a fun r => { r with result }).PlacesRight := places.frame rfl (.modSt u a _)
    exact named.frame rfl (.of_locks rfl rfl rfl fun _ => ⟨rfl, rfl, rfl⟩)

theorem step_keeps_places {s t : State} (places : s.PlacesRight) (rings : s.RingsSound) (h : step s = .next t) :
    t.PlacesRight := by
  cases queue : s.pending with
  | nil =>
    have idle : step s = .next (clkPeriod s) := by
      unfold step
      rw [queue]
    rw [idle] at h
    obtain rfl := Host.Outcome.next.inj h
    exact clkPeriod_keeps_places places
  | cons i rest =>
    obtain ⟨u, effect, answered⟩ := exec_leaves i { s with pending := rest } t (stepRunsTheFrontCommand i rest s queue ▸ h)
    refine answered.keeps_places (effect.keeps_places ?_ rings)
    exact places.frame rfl (.of_locks rfl rfl rfl fun _ => ⟨rfl, rfl, rfl⟩)

/-- Settles O54: the cells and the free descriptors by the updates one at a time, the places by the effects of the
commands, seen through the views of the commands' middles. -/
theorem storeStaysConserved : Obligations.StoreStaysConserved := by
  unfold Obligations.StoreStaysConserved
  refine ⟨fun s t conserved h => storeConserved_keptByUpdates.keepsStep s t conserved h,
    fun s t conserved placed rings h => ?_⟩
  have places : s.PlacesRight := s.placed_view_iff.mpr ⟨conserved.descsFree, placed⟩
  exact (t.placed_view_iff.mp (step_keeps_places places rings h)).2

end Sys2Proof.Machine
end

section
/-! What a station that is not ONLINE may hold (R92, R112, R153, R161), as a step invariant: the first half of O51. -/

namespace Sys2Proof.Machine

-- One proof at a time: many at once take more threads than the check allows.
set_option Elab.async false

/-- What `State.AbsentStationsHoldNothing` says of one station. A station on its way to OFFLINE is excused: in QUIESCING its
sources are not cleared yet, and in OFFLINE its confirmation list. -/
structure StationRec.HoldsNothing (excused : Bool) (r : StationRec) : Prop where
  absent : r.state ≠ .online → (excused = true → r.state = .offline) → r.pendingFlags = 0 ∧ r.inService = [] ∧ r.wait = none
  queues : r.state = .offline → (∀ c, r.queue c = []) ∧ r.readSlot = none
  confirms : r.state = .offline → excused = false → r.confirms = [] ∧ r.confirmOverflow = false

section
variable {e : Bool}

theorem StationRec.HoldsNothing.congr {r t : StationRec} (h : r.HoldsNothing e) (state : t.state = r.state)
    (flags : t.pendingFlags = r.pendingFlags) (service : t.inService = r.inService) (wait : t.wait = r.wait)
    (queues : t.queues = r.queues) (slot : t.readSlot = r.readSlot) (confirms : t.confirms = r.confirms)
    (overflow : t.confirmOverflow = r.confirmOverflow) : t.HoldsNothing e := by
  obtain ⟨absent, empty, confirmed⟩ := h
  constructor
  · rw [state, flags, service, wait]
    exact absent
  · unfold StationRec.queue
    rw [state, queues, slot]
    exact empty
  · rw [state, confirms, overflow]
    exact confirmed

/-- What an ONLINE station holds is free. -/
theorem StationRec.holdsNothing_of_online {r : StationRec} (online : r.state = .online) : r.HoldsNothing e := by
  constructor <;> simp [online]

/-- A record that differs from one that holds nothing in the flags alone, and not in them while it is not ONLINE. -/
theorem StationRec.HoldsNothing.flagged {r : StationRec} (h : r.HoldsNothing e) {v : BitVec 8}
    (same : r.state ≠ .online → v = r.pendingFlags) : ({ r with pendingFlags := v } : StationRec).HoldsNothing e := by
  by_cases online : r.state = .online
  · exact StationRec.holdsNothing_of_online online
  · rw [same online]
    exact h.congr rfl rfl rfl rfl rfl rfl rfl rfl

theorem StationRec.HoldsNothing.raised {r : StationRec} (h : r.HoldsNothing e) (n : SourceId) : (r.raised n).HoldsNothing e :=
  h.flagged fun away => if_neg away

theorem StationRec.HoldsNothing.faulted {r : StationRec} (h : r.HoldsNothing e) (code : FaultCode) (detail : Word) :
    (r.faulted code detail).HoldsNothing e :=
  StationRec.HoldsNothing.raised (r := { r with fault := some { code, detail }, multiple := r.multiple || r.fault.isSome })
    (h.congr rfl rfl rfl rfl rfl rfl rfl rfl) 7

theorem StationRec.HoldsNothing.ringOff {r : StationRec} (h : r.HoldsNothing e) : r.ringOff.HoldsNothing e :=
  StationRec.HoldsNothing.congr (h.flagged (v := if r.state = .online then r.pendingFlags ||| r.arrivals else r.pendingFlags)
    fun away => if_neg away) rfl rfl rfl rfl rfl rfl rfl rfl

theorem StationRec.HoldsNothing.unwaiting {r : StationRec} (h : r.HoldsNothing e) (o : WaitOutcome) :
    ({ r with wait := none, lastWait := o } : StationRec).HoldsNothing e :=
  ⟨fun away due => ⟨(h.absent away due).1, (h.absent away due).2.1, rfl⟩, h.queues, h.confirms⟩

theorem StationRec.HoldsNothing.tail {r : StationRec} (h : r.HoldsNothing e) (c : ClassId) :
    (r.setQueue c (r.queue c).tail).HoldsNothing e := by
  refine ⟨h.absent, fun off => ?_, h.confirms⟩
  obtain ⟨queues, slot⟩ := h.queues off
  refine ⟨fun k => ?_, slot⟩
  by_cases same : k = c
  · subst same; simp [queues]
  · simp [same, queues]

end

/-! ### The stations of a state -/

/-- Every station meets the law, the one on its way to OFFLINE excused. -/
def State.HoldNothingBut (x : Option StationId) (s : State) : Prop := ∀ a, (s.st a).HoldsNothing (x = some a)

theorem State.absentStationsHoldNothing_iff (s : State) : s.AbsentStationsHoldNothing ↔ s.HoldNothingBut none := by
  constructor
  · intro h a
    obtain ⟨absent, offline⟩ := h a
    exact ⟨fun away _ => absent away, fun off => ⟨(offline off).1, (offline off).2.1⟩, fun off _ => (offline off).2.2⟩
  · intro h a
    obtain ⟨absent, queues, confirms⟩ := h a
    exact ⟨fun away => absent away (by simp), fun off => ⟨(queues off).1, (queues off).2, confirms off (by simp)⟩⟩

theorem State.HoldNothingBut.frame {x : Option StationId} {s t : State} (h : s.HoldNothingBut x)
    (same : ∀ b, (t.st b).state = (s.st b).state ∧ (t.st b).pendingFlags = (s.st b).pendingFlags ∧
      (t.st b).inService = (s.st b).inService ∧ (t.st b).wait = (s.st b).wait ∧ (t.st b).queues = (s.st b).queues ∧
      (t.st b).readSlot = (s.st b).readSlot ∧ (t.st b).confirms = (s.st b).confirms ∧
      (t.st b).confirmOverflow = (s.st b).confirmOverflow) : t.HoldNothingBut x := fun b => by
  obtain ⟨state, flags, service, wait, queues, slot, confirms, overflow⟩ := same b
  exact (h b).congr state flags service wait queues slot confirms overflow

/-- One station changes, and with it who is excused. -/
theorem State.HoldNothingBut.excuse {x y : Option StationId} {s : State} (h : s.HoldNothingBut x) {a : StationId}
    {f : StationRec → StationRec} (others : ∀ b, b ≠ a → (y = some b ↔ x = some b))
    (own : (f (s.st a)).HoldsNothing (y = some a)) : (s.modSt a f).HoldNothingBut y := fun b => by
  by_cases e : b = a
  · subst e
    rwa [State.st_modSt_same]
  · rw [State.st_modSt_ne _ _ e]
    simpa only [others b e] using h b

theorem State.HoldNothingBut.modSt {x : Option StationId} {s : State} (h : s.HoldNothingBut x) {a : StationId}
    {f : StationRec → StationRec} (own : ∀ {e}, (s.st a).HoldsNothing e → (f (s.st a)).HoldsNothing e) :
    (s.modSt a f).HoldNothingBut x := h.excuse (fun _ _ => Iff.rfl) (own (h a))

theorem State.HoldNothingBut.startIfIdle {x : Option StationId} {s : State} (h : s.HoldNothingBut x) :
    (startIfIdle s).HoldNothingBut x := h.frame (by simp)

theorem State.HoldNothingBut.advanceBurst {x : Option StationId} {s : State} (h : s.HoldNothingBut x) :
    (advanceBurst s).HoldNothingBut x := h.frame (by simp)

theorem State.HoldNothingBut.setSource {x : Option StationId} {s : State} (h : s.HoldNothingBut x) (a : StationId)
    (n : SourceId) : (setSource a n s).HoldNothingBut x := by
  rw [setSource_eq]
  exact h.modSt fun own => own.raised n

theorem State.HoldNothingBut.recordFault {x : Option StationId} {s : State} (h : s.HoldNothingBut x) (a : StationId)
    (code : FaultCode) (detail : Word) : (recordFault a code detail s).HoldNothingBut x := by
  rw [recordFault_eq]
  exact h.modSt fun own => own.faulted code detail

theorem State.HoldNothingBut.endWait {x : Option StationId} {s : State} (h : s.HoldNothingBut x) (a : StationId)
    (o : WaitOutcome) : (endWait a o s).HoldNothingBut x := h.modSt fun own => own.unwaiting o

theorem State.HoldNothingBut.leaveWait {x : Option StationId} {s : State} (h : s.HoldNothingBut x) (a : StationId)
    (o : WaitOutcome) : (leaveWait a o s).HoldNothingBut x := by
  unfold Machine.leaveWait
  split
  · exact State.HoldNothingBut.endWait h a o
  · exact h

theorem State.HoldNothingBut.handoff {x : Option StationId} {s : State} (h : s.HoldNothingBut x) (l : LockId) :
    (handoff l s).HoldNothingBut x := by
  unfold Machine.handoff
  generalize (s.lock l).waiters = ws
  induction ws generalizing s with
  | nil => exact h
  | cons w rest ih =>
    unfold handoffAmong
    split
    · exact State.HoldNothingBut.setSource (State.HoldNothingBut.endWait h w .granted) w srcLock
    · exact ih (h.endWait w .cancelled)

theorem State.HoldNothingBut.passLock {x : Option StationId} {s : State} (h : s.HoldNothingBut x) (l : LockId)
    (r : StationId) : (passLock l r s).HoldNothingBut x := by
  unfold Machine.passLock
  split
  · exact State.HoldNothingBut.setSource (State.HoldNothingBut.endWait h r .granted) r srcLock
  · exact h

theorem State.HoldNothingBut.endRoomWait {x : Option StationId} {s : State} (h : s.HoldNothingBut x) (a : StationId)
    (o : SendOutcome) (sent : Bool) : (endRoomWait a o sent s).HoldNothingBut x := by
  unfold Machine.endRoomWait
  split
  · rename_i p _
    have ended : (endPost a p o (setLockState p.passLock (.held a) (releaseCount p.channel s))).HoldNothingBut x := by
      have returned : (setLockState p.passLock (.held a) (releaseCount p.channel s)).HoldNothingBut x := h.frame (by simp)
      exact returned.modSt fun own => own.congr rfl rfl rfl rfl rfl rfl rfl rfl
    dsimp only
    split
    · exact ended.setSource a srcSent
    · exact ended
  · exact h

theorem lawOfWaits_holdNothingBut (x : Option StationId) : LawOfWaits fun _ s => s.HoldNothingBut x where
  perm _ h := h
  onQueue _ h := h
  onGrant {e _ s} h _ := by
    unfold grant
    split
    · exact h.frame (by simp)
    · exact h
  onEnd o sent h := h.endRoomWait _ o sent

theorem confirmEnd_keeps_holdNothingBut {x : Option StationId} {s : State} (h : s.HoldNothingBut x) (o : EndOutcome)
    (m : Message) : (confirmEnd o m s).HoldNothingBut x := by
  unfold confirmEnd
  split
  · rename_i made
    have online : (s.st m.source).state = .online := by simpa using (Bool.and_eq_true_iff.mp made).2
    rw [offerConfirmation_eq]
    refine h.modSt fun _ => StationRec.holdsNothing_of_online ?_
    unfold StationRec.offered
    split <;> exact online
  · exact h

theorem disposeLock_keeps_holdNothingBut {x : Option StationId} {s : State} (h : s.HoldNothingBut x) (o : EndOutcome)
    (m : Message) : (disposeLock o m s).HoldNothingBut x := by
  unfold disposeLock
  split
  · exact h.passLock _ _
  · exact h.handoff _
  · exact h

theorem State.HoldNothingBut.endMessage {x : Option StationId} {s : State} (h : s.HoldNothingBut x) (o : EndOutcome)
    (d : DescId) : (endMessage o d s).HoldNothingBut x := by
  cases hm : s.msg d with
  | none => rwa [endMessage_of_none hm]
  | some m =>
    rw [endMessage_of_msg hm]
    have settled := confirmEnd_keeps_holdNothingBut (disposeLock_keeps_holdNothingBut h o m) o m
    exact (lawOfWaits_holdNothingBut x).examine (s := (confirmEnd o m (disposeLock o m s)).freed d m)
      (settled.frame (by simp))

/-! ### The way to OFFLINE -/

theorem State.HoldNothingBut.releaseHoldings {x : Option StationId} {s : State} (h : s.HoldNothingBut x) (a : StationId) :
    (releaseHoldings a s).HoldNothingBut x :=
  foldl_keeps (P := State.HoldNothingBut x) (fun t l ht => by
    unfold releaseIfHeld
    split
    · exact ht.handoff l
    · exact ht) _ _ h

/-- The end of the OFFLINE entry: the confirmation list goes, and with it the excuse. -/
theorem State.HoldNothingBut.clearConfirms {s : State} {a : StationId} (h : s.HoldNothingBut (some a))
    (offline : (s.st a).state = .offline) : (s.modSt a fun r =>
      { r with ring := { r.ring with state := .disabled }, confirms := [], confirmOverflow := false }).HoldNothingBut none := by
  obtain ⟨absent, queues, -⟩ := h a
  refine h.excuse (fun b ne => by simp [Ne.symm ne]) ⟨fun away _ => ?_, fun off => ?_, fun _ _ => ⟨rfl, rfl⟩⟩
  · exact absent away fun _ => offline
  · exact queues off

/-- The station that goes OFFLINE holds nothing when its entry is over. -/
theorem enterOffline_keeps_holdNothing {s : State} (h : s.HoldNothingBut none) {a : StationId}
    (quiescing : (s.st a).state = .quiescing) : (enterOffline a s).HoldNothingBut none := by
  obtain ⟨flags, service, wait⟩ := (h a).absent (by simp [quiescing]) (by simp)
  have emptied : ((s.modSt a fun r => { r with state := .offline }).modSt a fun r =>
      { r with queues := Vector.replicate 4 [], readSlot := none }).HoldNothingBut (some a) := by
    rw [State.modSt_modSt]
    refine h.excuse (fun b ne => by simp [Ne.symm ne]) ⟨fun _ _ => ⟨flags, service, wait⟩, fun _ => ⟨fun c => ?_, rfl⟩, by simp⟩
    simp [StationRec.queue]
  have purged : (purge a (s.modSt a fun r => { r with state := .offline })).HoldNothingBut (some a) := by
    unfold purge discardAll
    exact foldl_keeps (P := State.HoldNothingBut (some a)) (fun t d ht => ht.endMessage .discarded d) _ _ emptied
  have released := purged.releaseHoldings a
  have state : ((releaseHoldings a (purge a (s.modSt a fun r => { r with state := .offline }))).st a).state = .offline := by
    simp [purge]
  unfold enterOffline
  exact released.clearConfirms state

theorem quiesce_keeps_holdNothing {s : State} (h : s.HoldNothingBut none) (a : StationId) :
    (quiesce a s).HoldNothingBut none := by
  unfold quiesce
  split
  · rename_i quiet
    exact enterOffline_keeps_holdNothing h quiet.1
  · exact h

theorem leaveWait_wait (a : StationId) (o : WaitOutcome) (s : State) : ((leaveWait a o s).st a).wait = none := by
  unfold leaveWait
  split
  · simp [endWait]
  · assumption

theorem enterQuiescing_keeps_holdNothing {s : State} (h : s.HoldNothingBut none) (a : StationId) :
    (enterQuiescing a s).HoldNothingBut none := by
  have quiescing : (s.modSt a fun r => { r with state := .quiescing }).HoldNothingBut (some a) :=
    h.excuse (fun b ne => by simp [Ne.symm ne]) ⟨by simp, by simp, by simp⟩
  have ended : (removeWaiting (fun e => e.station == a) .cancelled false
      (s.modSt a fun r => { r with state := .quiescing })).HoldNothingBut (some a) :=
    (lawOfWaits_holdNothingBut (some a)).removeWaiting quiescing _ _ _
  have left : (s.leaving a).HoldNothingBut (some a) := ended.leaveWait a .cancelled
  have abandoned : (abandonDelivery a (s.leaving a)).HoldNothingBut (some a) := left.frame (by simp)
  have state : ((abandonDelivery a (s.leaving a)).st a).state = .quiescing := by simp [State.leaving]
  have wait : ((abandonDelivery a (s.leaving a)).st a).wait = none := by
    rw [(abandonDelivery_stations a _ a).2.2.2.2.2.2.2.2.2.2.2.2.2.2.2.1]
    exact leaveWait_wait a .cancelled _
  rw [enterQuiescing_eq]
  refine quiesce_keeps_holdNothing (abandoned.excuse (fun b ne => by simp [Ne.symm ne]) ?_) a
  exact ⟨fun _ _ => ⟨rfl, rfl, wait⟩, by simp [StationRec.silence, state], by simp [StationRec.silence, state]⟩

/-! ### Every update -/

theorem enqueue_keeps_holdNothing {s : State} (h : s.HoldNothingBut none) {m : Message} (late : lateCheck m s = none)
    (d : DescId) : (enqueue d m s).HoldNothingBut none := by
  have online : (s.st m.dest).state = .online := by
    unfold lateCheck at late
    split at late
    · simp at late
    · rename_i online
      simpa using online
  have appended : (s.modSt m.dest fun r => r.setQueue m.cls (r.queue m.cls ++ [d])).HoldNothingBut none :=
    h.modSt fun _ => StationRec.holdsNothing_of_online online
  unfold enqueue
  dsimp only
  split
  · exact State.HoldNothingBut.setSource appended _ _
  · exact appended

theorem attemptEnqueue_keeps_holdNothing {s : State} (h : s.HoldNothingBut none) (a : StationId) (p : Post)
    (d : DescId) (m : Message) : (attemptEnqueue a p d m s).HoldNothingBut none := by
  have ended : ∀ (u : State) o, u.HoldNothingBut none → (setSource a srcSent (endPost a p o u)).HoldNothingBut none :=
    fun u o hu => State.HoldNothingBut.setSource (hu.modSt fun own => own.congr rfl rfl rfl rfl rfl rfl rfl rfl) a srcSent
  unfold attemptEnqueue
  split
  · exact ended _ _ ((enqueue_keeps_holdNothing h ‹_› d).frame (by simp))
  · exact ended _ _ (h.frame (by simp))

theorem faultDelivery_keeps_holdNothing {s : State} (h : s.HoldNothingBut none) (d : Delivery) (code : FaultCode)
    (addr : Word) : (faultDelivery d code addr s).HoldNothingBut none := by
  have released : ∀ u : State, u.HoldNothingBut none →
      (releaseToIdle (recordFault d.station code addr u)).HoldNothingBut none := fun u hu =>
    (State.HoldNothingBut.recordFault hu d.station code addr).frame (by simp)
  have requeued : (setMessageState d.desc .queued s).HoldNothingBut none := h.frame (by simp)
  refine released _ ?_
  split
  · rw [disableRing_eq]
    exact requeued.modSt fun own => own.ringOff
  · exact requeued.modSt fun own => own.congr rfl rfl rfl rfl rfl rfl rfl rfl

theorem settleRing_keeps_holdNothing {s : State} (h : s.HoldNothingBut none) (a : StationId) :
    (settleRing a s).HoldNothingBut none := by
  unfold settleRing
  split
  · exact h.modSt fun own => own.congr rfl rfl rfl rfl rfl rfl rfl rfl
  · rw [disableRing_eq]
    exact h.modSt fun own => own.ringOff
  · exact h

/-- Every update keeps what absent stations may hold. -/
theorem holdNothing_keptByUpdates : KeptByUpdates (State.HoldNothingBut none) := by
  constructor
  case onPlain =>
    intro a f s h same
    exact h.modSt fun own => own.congr same.state same.pendingFlags same.inService same.wait same.queues same.readSlot
      same.confirms same.confirmOverflow
  case onFault =>
    intro a code detail s h
    exact h.recordFault a code detail
  case onClearFlags =>
    intro a v s h
    refine h.modSt fun own => ⟨fun away due => ?_, own.queues, own.confirms⟩
    obtain ⟨flags, rest⟩ := own.absent away due
    exact ⟨by simp [flags], rest⟩
  case onAttach =>
    intro a s h _ _
    exact h.modSt fun _ => StationRec.holdsNothing_of_online rfl
  case onQuiescing =>
    intro a s h _ _
    exact enterQuiescing_keeps_holdNothing h a
  case onPostNow | onPostWait =>
    intros
    exact State.HoldNothingBut.frame ‹_› (by simp)
  case onCancelPost | onRoomTimer =>
    intros
    exact (lawOfWaits_holdNothingBut none).removeWaiting ‹State.HoldNothingBut none _› _ _ _
  case onCloseChannel =>
    intro ch s h _
    have closed : (s.modChan ch fun e => { e with state := .closed }).HoldNothingBut none := h
    exact (lawOfWaits_holdNothingBut none).removeWaiting closed _ _ _
  case onTake =>
    intro a c d rest s h online _ _ _
    cases hm : s.msg d with
    | none => rwa [takeHead, hm]
    | some m =>
      rw [takeHead, hm]
      have taken : ((s.modSt a fun r => { r.setQueue c (r.queue c).tail with
          readSlot := some { desc := d, header0 := headerWord0 m, header1 := headerWord1 m } })).HoldNothingBut none :=
        h.modSt fun _ => StationRec.holdsNothing_of_online online
      have read : ∀ u : State, u.HoldNothingBut none → (u.setMsg d
          (some { m with state := .reading, carriedLock := none })).HoldNothingBut none := fun _ hu => hu
      dsimp only
      unfold passCarried
      split
      · exact (read _ taken).passLock _ _
      · exact read _ taken
  case onRelease =>
    intro a slot s h online _
    exact State.HoldNothingBut.endMessage (h.modSt fun _ => StationRec.holdsNothing_of_online online) _ _
  case onHandoff =>
    intro a l s h _
    exact h.handoff l
  case onCancelWait =>
    intro a s h
    exact h.leaveWait a .cancelled
  case onWaitTimer =>
    intro a s h _
    exact (h.leaveWait a .timeout).setSource a srcLock
  case onJoinWaiters =>
    intro a l s h online _ _ _
    exact State.HoldNothingBut.modSt (s := s.setLock l { state := (s.lock l).state, waiters := (s.lock l).waiters ++ [a] }) h
      fun _ => StationRec.holdsNothing_of_online online
  case onPopConfirm =>
    intro a e rest s h online _
    exact h.modSt fun _ => StationRec.holdsNothing_of_online online
  case onClearOverflow =>
    intro a s h
    refine h.modSt fun own => ⟨own.absent, own.queues, fun off due => ⟨(own.confirms off due).1, rfl⟩⟩
  case onEndService =>
    intro a s h
    refine h.modSt fun own => ⟨fun away due => ?_, own.queues, own.confirms⟩
    obtain ⟨flags, service, wait⟩ := own.absent away due
    exact ⟨flags, by simp [service], wait⟩
  case onAcknowledge =>
    intro a n s h chosen
    have eligible := StationRec.eligible_of_chosenSource chosen
    unfold StationRec.eligible at eligible
    have online : (s.st a).state = .online := by simp_all
    exact h.modSt fun _ => StationRec.holdsNothing_of_online online
  case onEnableRing | onResumeRing | onConsume =>
    intros
    exact State.HoldNothingBut.startIfIdle (State.HoldNothingBut.modSt ‹_› fun own =>
      own.congr rfl rfl rfl rfl rfl rfl rfl rfl)
  case onDisabling | onQueueLimit =>
    intros
    exact State.HoldNothingBut.modSt ‹_› fun own => own.congr rfl rfl rfl rfl rfl rfl rfl rfl
  case onDisableRing =>
    intro a s h _ _ _
    rw [disableRing_eq]
    exact h.modSt fun own => own.ringOff
  case onReset =>
    intro v q a
    have reset : StationRec.reset.HoldsNothing (none = some a) :=
      ⟨fun _ _ => ⟨rfl, rfl, rfl⟩, fun _ => ⟨fun c => by simp [StationRec.queue, StationRec.reset], rfl⟩, fun _ _ => ⟨rfl, rfl⟩⟩
    simpa [State.st, State.reset] using reset
  case onTick =>
    intro s h a
    obtain ⟨absent, queues, confirms⟩ := h a
    have ticked : (tickAll s).st a = (s.st a).ticked := by simp [tickAll, State.st]
    rw [ticked]
    refine ⟨fun away due => ?_, queues, confirms⟩
    obtain ⟨flags, service, wait⟩ := absent away due
    exact ⟨flags, service, by simp [StationRec.ticked, wait]⟩
  case onFaultDelivery =>
    intro d c code addr s h _
    exact faultDelivery_keeps_holdNothing h d code addr
  case onCopyCompletion =>
    intro a p d m s h _ _
    have copied : ({ s with cellStore := copyPayload m.cells m.length (s.st a).staging s.cellStore } :
      State).HoldNothingBut none := h
    exact quiesce_keeps_holdNothing ((attemptEnqueue_keeps_holdNothing copied a p d m).frame (by simp)) a
  case onComplete =>
    intro d c s h _ _
    have advanced : (advanceRing d s).HoldNothingBut none :=
      h.modSt fun own => (own.tail d.cls).congr rfl rfl rfl rfl rfl rfl rfl rfl
    have ended := (advanced.endMessage .delivered d.desc).setSource d.station (srcArrive d.cls)
    exact (settleRing_keeps_holdNothing ended d.station).advanceBurst
  case onAnswer | onPending | onCount | onTakeLock | onOpenChannel | onSetTick | onSetEngine | onReassert | onRetry | onBusGrant |
      onNextWrite =>
    intros
    assumption

end Sys2Proof.Machine
end

section
/-! What an OFFLINE station keeps without (R40, R161): send state, ring, locks and delivery. The second half of O51. -/

namespace Sys2Proof.Machine

-- One proof at a time: many at once take more threads than the check allows.
set_option Elab.async false

/-- `State.OfflineStationsAreIdle` with what keeps it so: a PLEDGED lock is that of a pending post, and no delivery is for an
OFFLINE station. The station whose OFFLINE entry is running may still hold locks and have a ring. -/
structure State.OfflineIdle (x : Option StationId) (s : State) : Prop where
  send : ∀ b, (s.st b).state = .offline → (s.st b).send = .idle
  ring : ∀ b, (s.st b).state = .offline → x ≠ some b → (s.st b).ring.state = .disabled
  held : ∀ l o, (s.lock l).state = .held o → (s.st o).state = .offline → x = some o
  pledged : ∀ l o, (s.lock l).state = .pledged o → ∃ p, (s.st o).send.post = some p ∧ p.passLock = some l
  delivery : ∀ y, s.engine.delivery = some y → (s.st y.station).state ≠ .offline

theorem State.OfflineIdle.stationsIdle {s : State} (h : s.OfflineIdle none) : s.OfflineStationsAreIdle := by
  intro a off
  have idle := h.send a off
  refine ⟨idle, h.ring a off (by simp), fun l => ⟨fun held => ?_, fun pledged => ?_⟩⟩
  · simpa using h.held l a held off
  · obtain ⟨p, post, -⟩ := h.pledged l a pledged
    simp [idle, SendState.post] at post

theorem State.OfflineStationsAreIdle.offlineIdle {s : State} (h : s.OfflineStationsAreIdle) (placed : s.MessagesPlaced)
    (rings : s.RingsSound) : s.OfflineIdle none where
  send b off := (h b off).1
  ring b off _ := (h b off).2.1
  held l o held off := absurd held ((h o off).2.2 l).1
  pledged l o pledged := (placed.pledged l o).mp pledged
  delivery y hy off := by
    have online := ((rings y.station).2.1 ((s.delivering_iff _).mpr ⟨y, hy, rfl⟩)).1
    simp [off] at online

/-- What the law reads of a state. -/
structure SameIdle (s t : State) : Prop where
  stations : ∀ b, (t.st b).state = (s.st b).state ∧ (t.st b).send = (s.st b).send ∧ (t.st b).ring.state = (s.st b).ring.state
  locks : ∀ l, (t.lock l).state = (s.lock l).state
  delivery : t.engine.delivery = s.engine.delivery

theorem State.OfflineIdle.frame {x : Option StationId} {s t : State} (h : s.OfflineIdle x) (same : SameIdle s t) :
    t.OfflineIdle x := by
  have state : ∀ b, (t.st b).state = (s.st b).state := fun b => (same.stations b).1
  have send : ∀ b, (t.st b).send = (s.st b).send := fun b => (same.stations b).2.1
  have ring : ∀ b, (t.st b).ring.state = (s.st b).ring.state := fun b => (same.stations b).2.2
  constructor
  · simpa only [state, send] using h.send
  · simpa only [state, ring] using h.ring
  · simpa only [state, same.locks] using h.held
  · simpa only [send, same.locks] using h.pledged
  · simpa only [state, same.delivery] using h.delivery

/-- The stations and the engine as they were, the locks changed. -/
theorem State.OfflineIdle.lockChange {x : Option StationId} {s t : State} (h : s.OfflineIdle x) {k : LockId}
    (stations : ∀ b, (t.st b).state = (s.st b).state ∧ (t.st b).send = (s.st b).send ∧
      (t.st b).ring.state = (s.st b).ring.state)
    (delivery : t.engine.delivery = s.engine.delivery) (others : ∀ l, l ≠ k → (t.lock l).state = (s.lock l).state)
    (held : ∀ o, (t.lock k).state = .held o → (s.st o).state = .offline → x = some o)
    (pledged : ∀ o, (t.lock k).state ≠ .pledged o) : t.OfflineIdle x := by
  have state : ∀ b, (t.st b).state = (s.st b).state := fun b => (stations b).1
  have send : ∀ b, (t.st b).send = (s.st b).send := fun b => (stations b).2.1
  have ring : ∀ b, (t.st b).ring.state = (s.st b).ring.state := fun b => (stations b).2.2
  constructor
  · simpa only [state, send] using h.send
  · simpa only [state, ring] using h.ring
  · intro l o hl
    rw [state]
    by_cases same : l = k
    · subst same; exact held o hl
    · rw [others l same] at hl
      exact h.held l o hl
  · intro l o hl
    rw [send]
    by_cases same : l = k
    · subst same; exact absurd hl (pledged o)
    · rw [others l same] at hl
      exact h.pledged l o hl
  · simpa only [state, delivery] using h.delivery

theorem State.OfflineIdle.handoff {x : Option StationId} {s : State} (h : s.OfflineIdle x) (l : LockId) :
    (handoff l s).OfflineIdle x := by
  refine h.lockChange (k := l) (by simp) (by simp) (fun k ne => by rw [handoff_lock_other ne]) (fun o held off => ?_)
    fun o pledged => ?_
  · rcases handoff_lock_state l s with free | ⟨w, -, heldBy, online⟩
    · simp [free] at held
    · rw [heldBy] at held
      obtain rfl := LockState.held.inj held
      simp [online] at off
  · rcases handoff_lock_state l s with free | ⟨w, -, heldBy, -⟩
    · simp [free] at pledged
    · simp [heldBy] at pledged

theorem State.OfflineIdle.passLock {x : Option StationId} {s : State} (h : s.OfflineIdle x) (l : LockId) {r : StationId}
    (present : (s.st r).state ≠ .offline) : (passLock l r s).OfflineIdle x := by
  refine h.lockChange (k := l) (by simp) (by simp) (fun k ne => by rw [passLock_lock_other ne]) (fun o held off => ?_)
    fun o pledged => ?_
  · rw [passLock_lock_state] at held
    obtain rfl := LockState.held.inj held
    exact absurd off present
  · simp [passLock_lock_state] at pledged

theorem SameIdle.setSource (a : StationId) (n : SourceId) (s : State) : SameIdle s (setSource a n s) :=
  ⟨by simp, by simp, by simp⟩

/-- One station changes neither in its state nor in its send state; its ring is DISABLED, or as it was, or the station is not
OFFLINE. -/
theorem State.OfflineIdle.modSt {x : Option StationId} {s : State} (h : s.OfflineIdle x) {a : StationId}
    {f : StationRec → StationRec} (state : (f (s.st a)).state = (s.st a).state) (send : (f (s.st a)).send = (s.st a).send)
    (ring : (s.st a).state = .offline → (s.st a).ring.state = .disabled → (f (s.st a)).ring.state = .disabled) :
    (s.modSt a f).OfflineIdle x := by
  have states : ∀ b, ((s.modSt a f).st b).state = (s.st b).state := fun b => by
    by_cases e : b = a
    · subst e; simpa using state
    · simp [e]
  have sends : ∀ b, ((s.modSt a f).st b).send = (s.st b).send := fun b => by
    by_cases e : b = a
    · subst e; simpa using send
    · simp [e]
  refine ⟨?_, fun b off away => ?_, ?_, ?_, ?_⟩
  · simpa only [states, sends] using h.send
  · rw [states] at off
    have before := h.ring b off away
    by_cases e : b = a
    · subst e
      rw [State.st_modSt_same]
      exact ring off before
    · rwa [State.st_modSt_ne _ _ e]
  · simpa only [states, State.modSt_lock] using h.held
  · simpa only [sends, State.modSt_lock] using h.pledged
  · simpa only [states, State.modSt_engine] using h.delivery

/-! ### Room waits -/

theorem State.OfflineIdle.allocate {x : Option StationId} {s : State} (h : s.OfflineIdle x) {a : StationId} {p : Post}
    (waits : (s.st a).send = .awaitRoom p) : (allocate a p s).OfflineIdle x := by
  have present : (s.st a).state ≠ .offline := fun off => by simp [h.send a off] at waits
  let t := Machine.allocate a p s
  have states : ∀ b, (t.st b).state = (s.st b).state ∧ (t.st b).ring = (s.st b).ring := fun b => by simp [t]
  have sends : ∀ b, b ≠ a → (t.st b).send = (s.st b).send := fun b ne => by simp [t, ne]
  have locks : ∀ l, t.lock l = s.lock l := fun l => by simp [t, State.lock]
  have post : (t.st a).send.post = some p := by
    cases free : s.freeDescs with
    | nil => simp [t, Machine.allocate, free, waits, SendState.post]
    | cons d rest => simp [t, allocate_station free, SendState.post]
  show t.OfflineIdle x
  refine ⟨fun b off => ?_, fun b off away => ?_, fun l o held => ?_, fun l o pledged => ?_, fun y hy => ?_⟩
  · rw [(states b).1] at off
    by_cases e : b = a
    · exact absurd off (e ▸ present)
    · rw [sends b e]
      exact h.send b off
  · rw [(states b).1] at off
    rw [(states b).2]
    exact h.ring b off away
  · rw [locks] at held
    rw [(states o).1]
    exact h.held l o held
  · rw [locks] at pledged
    obtain ⟨q, hq, lock⟩ := h.pledged l o pledged
    by_cases e : o = a
    · subst e
      rw [waits] at hq
      obtain rfl : p = q := Option.some.inj hq
      exact ⟨p, post, lock⟩
    · rw [sends o e]
      exact ⟨q, hq, lock⟩
  · rw [(states _).1]
    refine h.delivery y ?_
    simpa [t] using hy

theorem State.OfflineIdle.endRoomWait {x : Option StationId} {s : State} (h : s.OfflineIdle x) (a : StationId)
    (o : SendOutcome) (sent : Bool) : (endRoomWait a o sent s).OfflineIdle x := by
  cases waits : (s.st a).send with
  | idle => simpa [Machine.endRoomWait, waits] using h
  | copying p d => simpa [Machine.endRoomWait, waits] using h
  | awaitRoom p =>
    have present : (s.st a).state ≠ .offline := fun off => by simp [h.send a off] at waits
    let t := Machine.endRoomWait a o sent s
    have states : ∀ b, (t.st b).state = (s.st b).state ∧ (t.st b).ring = (s.st b).ring := fun b => by simp [t]
    have own : (t.st a).send = .idle := by simp [t, endRoomWait_send waits]
    have sends : ∀ b, b ≠ a → (t.st b).send = (s.st b).send := fun b ne => by simp [t, ne]
    have locks : ∀ l, (t.lock l).state = if p.passLock = some l then .held a else (s.lock l).state := fun l => by
      have same : t.locks = (setLockState p.passLock (.held a) s).locks := by
        simp only [t, endRoomWait_eq waits]
        cases p.passLock <;> rfl
      rw [State.lock, same]
      unfold setLockState
      cases p.passLock with
      | none => simp [State.lock]
      | some k =>
        by_cases e : l = k
        · subst e; simp [State.setLock]
        · simp [State.setLock, State.lock, e, Ne.symm e]
    show t.OfflineIdle x
    refine ⟨fun b off => ?_, fun b off away => ?_, fun l b held => ?_, fun l b pledged => ?_, fun y hy => ?_⟩
    · rw [(states b).1] at off
      by_cases e : b = a
      · exact absurd off (e ▸ present)
      · rw [sends b e]
        exact h.send b off
    · rw [(states b).1] at off
      rw [(states b).2]
      exact h.ring b off away
    · rw [locks] at held
      rw [(states b).1]
      split at held
      · obtain rfl := LockState.held.inj held
        exact fun off => absurd off present
      · exact h.held l b held
    · rw [locks] at pledged
      split at pledged
      · simp at pledged
      · rename_i notOwn
        obtain ⟨q, hq, lock⟩ := h.pledged l b pledged
        by_cases e : b = a
        · subst e
          rw [waits] at hq
          obtain rfl : p = q := Option.some.inj hq
          exact absurd lock notOwn
        · rw [sends b e]
          exact ⟨q, hq, lock⟩
    · rw [(states _).1]
      refine h.delivery y ?_
      simpa [t] using hy

theorem lawOfWaits_offlineIdle (x : Option StationId) : LawOfWaits fun _ s => s.OfflineIdle x where
  perm _ h := h
  onQueue _ h := h.frame ⟨fun _ => ⟨rfl, rfl, rfl⟩, fun _ => rfl, rfl⟩
  onGrant {e _ s} h _ := by
    unfold grant
    split
    · exact h.allocate ‹_›
    · exact h
  onEnd o sent h := h.endRoomWait _ o sent

/-! ### The end of a message -/

theorem State.OfflineIdle.endMessage {x : Option StationId} {s : State} (h : s.OfflineIdle x) (o : EndOutcome) (d : DescId)
    (passed : o = .delivered → ∀ m, s.msg d = some m → (s.st m.dest).state ≠ .offline) :
    (endMessage o d s).OfflineIdle x := by
  cases hm : s.msg d with
  | none => rwa [endMessage_of_none hm]
  | some m =>
    have disposed : (disposeLock o m s).OfflineIdle x := by
      unfold disposeLock
      split
      · exact h.passLock _ (passed rfl m hm)
      · exact h.handoff _
      · exact h
    rw [endMessage_of_msg hm]
    have confirmed : (confirmEnd o m (disposeLock o m s)).OfflineIdle x :=
      disposed.frame ⟨by simp, fun l => by rw [State.lock, State.lock, (confirmEnd_frame o m _).2.2.1], by simp⟩
    exact (lawOfWaits_offlineIdle x).examine (s := (confirmEnd o m (disposeLock o m s)).freed d m)
      (confirmed.frame ⟨by simp, by simp, by simp⟩)

/-! ### The engine -/

/-- The delivery that starts is for an ONLINE station. -/
theorem State.OfflineIdle.startIfIdle {x : Option StationId} {s : State} (h : s.OfflineIdle x) :
    (startIfIdle s).OfflineIdle x := by
  refine ⟨?_, ?_, ?_, ?_, fun y hy => ?_⟩
  · simpa using h.send
  · simpa using h.ring
  · simpa using h.held
  · simpa using h.pledged
  · have state : ((Machine.startIfIdle s).st y.station).state = (s.st y.station).state := by simp
    rw [state]
    unfold Machine.startIfIdle at hy
    split at hy
    · rename_i d _ next
      obtain rfl := Option.some.inj hy
      have eligible := ((s.eligible_iff _).mp (State.nextDelivery_eligible next)).1
      simp [eligible]
    · exact h.delivery y hy

/-- The engine gives its delivery up. -/
theorem State.OfflineIdle.released {x : Option StationId} {s : State} (h : s.OfflineIdle x) :
    (releaseToIdle s).OfflineIdle x := by
  have idle : ({ s with engine := .idle, gap := true } : State).OfflineIdle x :=
    ⟨h.send, h.ring, h.held, h.pledged, fun y hy => by simp [EngineState.delivery] at hy⟩
  exact State.OfflineIdle.startIfIdle idle

theorem State.OfflineIdle.advanceBurst {x : Option StationId} {s : State} (h : s.OfflineIdle x) :
    (advanceBurst s).OfflineIdle x := by
  have counted : ({ s with burst := s.burst + 1 } : State).OfflineIdle x :=
    h.frame ⟨fun _ => ⟨rfl, rfl, rfl⟩, fun _ => rfl, rfl⟩
  unfold Machine.advanceBurst
  split
  · unfold continueBurst
    split
    · rename_i next found
      have online := ((State.eligible_iff _ _).mp (State.nextDelivery_eligible found)).1
      have adopted : (adoptDelivery next { s with burst := s.burst + 1 }).OfflineIdle x :=
        counted.frame ⟨by simp, by simp, by simp⟩
      refine ⟨adopted.send, adopted.ring, adopted.held, adopted.pledged, fun y hy => ?_⟩
      obtain rfl : next = y := Option.some.inj hy
      have state : ((adoptDelivery next { s with burst := s.burst + 1 }).st next.station).state = .online := by
        simpa using online
      show ((adoptDelivery next { s with burst := s.burst + 1 }).st next.station).state ≠ .offline
      rw [state]
      decide
    · exact State.OfflineIdle.released counted
  · exact State.OfflineIdle.released counted

/-- A delivery that faults is for a station that is not OFFLINE, whose ring may change. -/
theorem faultDelivery_keeps_offlineIdle {s : State} (h : s.OfflineIdle none) {d : Delivery}
    (engine : s.engine.delivery = some d) (code : FaultCode) (addr : Word) :
    (faultDelivery d code addr s).OfflineIdle none := by
  have present : (s.st d.station).state ≠ .offline := h.delivery d engine
  have released : ∀ u : State, u.OfflineIdle none →
      (releaseToIdle (recordFault d.station code addr u)).OfflineIdle none := fun u hu =>
    State.OfflineIdle.released (hu.frame ⟨by simp, by simp, by simp⟩)
  have requeued : (setMessageState d.desc .queued s).OfflineIdle none := h.frame ⟨by simp, by simp, by simp⟩
  have away : ((setMessageState d.desc .queued s).st d.station).state ≠ .offline := by simpa using present
  refine released _ ?_
  split
  · rw [disableRing_eq]
    exact requeued.modSt rfl rfl fun off => absurd off away
  · exact requeued.modSt rfl rfl fun off => absurd off away

theorem abandonDelivery_keeps_offlineIdle {s : State} (h : s.OfflineIdle none) (a : StationId) :
    (abandonDelivery a s).OfflineIdle none := by
  unfold abandonDelivery
  split
  · rename_i d _
    split
    · have requeued : (setMessageState d.desc .queued s).OfflineIdle none := h.frame ⟨by simp, by simp, by simp⟩
      refine State.OfflineIdle.released (requeued.modSt ?_ ?_ fun _ off => ?_)
      · split <;> rfl
      · split <;> rfl
      · split
        · rfl
        · exact off
    · exact h
  · exact h

theorem settleRing_keeps_offlineIdle {s : State} (h : s.OfflineIdle none) {a : StationId}
    (present : (s.st a).state ≠ .offline) : (settleRing a s).OfflineIdle none := by
  unfold settleRing
  split
  · exact h.modSt rfl rfl fun off => absurd off present
  · rw [disableRing_eq]
    exact h.modSt rfl rfl fun off => absurd off present
  · exact h

/-! ### The way to OFFLINE -/

/-- The release of a station's locks leaves none HELD by it, once it is not ONLINE (R113). -/
theorem releaseIfHeld_lock (a : StationId) (l k : LockId) (s : State) (away : (s.st a).state ≠ .online)
    (freed : k ≠ l → (s.lock k).state ≠ .held a) : ((releaseIfHeld a s l).lock k).state ≠ .held a := by
  unfold releaseIfHeld
  by_cases same : k = l
  · subst same
    split
    · rcases handoff_lock_state k s with free | ⟨w, -, held, online⟩
      · simp [free]
      · rw [held]
        rintro ⟨rfl⟩
        exact away online
    · assumption
  · split
    · rw [handoff_lock_other same]
      exact freed same
    · exact freed same

theorem releaseHoldings_lock (a : StationId) (s : State) (away : (s.st a).state ≠ .online) (l : LockId) :
    ((releaseHoldings a s).lock l).state ≠ .held a := by
  have visits : ∀ (ls : List LockId) (t : State), (t.st a).state ≠ .online →
      (∀ k, k ∉ ls → (t.lock k).state ≠ .held a) → ((ls.foldl (releaseIfHeld a) t).lock l).state ≠ .held a := by
    intro ls
    induction ls with
    | nil =>
      intro t _ freed
      exact freed l (by simp)
    | cons k rest ih =>
      intro t ht freed
      refine ih (releaseIfHeld a t k) (by simpa using ht) fun j hj => releaseIfHeld_lock a k j t ht fun ne => freed j ?_
      simp [ne, hj]
  exact visits _ s away fun k hk => absurd (List.mem_finRange k) hk

theorem enterOffline_keeps_offlineIdle {s : State} (h : s.OfflineIdle none) {a : StationId} (idle : (s.st a).send = .idle)
    (free : s.delivering a = false) : (enterOffline a s).OfflineIdle none := by
  have offline : (s.modSt a fun r => { r with state := .offline }).OfflineIdle (some a) := by
    let t := s.modSt a fun r => { r with state := .offline }
    have others : ∀ b, b ≠ a → t.st b = s.st b := fun b ne => State.st_modSt_ne _ _ ne
    have sends : ∀ b, (t.st b).send = (s.st b).send := fun b => by
      by_cases e : b = a
      · subst e; simp [t]
      · rw [others b e]
    refine ⟨fun b off => ?_, fun b off away => ?_, fun l o held off => ?_, fun l o pledged => ?_, fun y hy => ?_⟩
    · rw [sends]
      by_cases e : b = a
      · rw [e]; exact idle
      · exact h.send b (others b e ▸ off)
    · have e : b ≠ a := fun same => away (by rw [same])
      have same := others b e
      rw [show (s.modSt a fun r => { r with state := .offline }).st b = s.st b from same] at off ⊢
      exact h.ring b off (by simp)
    · by_cases e : o = a
      · rw [e]
      · rw [show (s.modSt a fun r => { r with state := .offline }).st o = s.st o from others o e] at off
        exact absurd (h.held l o held off) (by simp)
    · rw [sends]
      exact h.pledged l o pledged
    · have ne : y.station ≠ a := fun same => by
        simp [(s.delivering_iff a).mpr ⟨y, hy, same⟩] at free
      rw [State.st_modSt_ne _ _ ne]
      exact h.delivery y hy
  have purged : (purge a (s.modSt a fun r => { r with state := .offline })).OfflineIdle (some a) := by
    unfold purge discardAll
    refine foldl_keeps (P := State.OfflineIdle (some a)) (fun t d ht => ht.endMessage .discarded d (by simp)) _ _ ?_
    exact offline.modSt rfl rfl fun _ off => off
  have released : (releaseHoldings a (purge a (s.modSt a fun r => { r with state := .offline }))).OfflineIdle (some a) :=
    foldl_keeps (P := State.OfflineIdle (some a)) (fun t l ht => by
      unfold releaseIfHeld
      split
      · exact ht.handoff l
      · exact ht) _ _ purged
  have notOnline : ((purge a (s.modSt a fun r => { r with state := .offline })).st a).state ≠ .online := by
    simp [purge]
  have noLock := releaseHoldings_lock a _ notOnline
  revert released noLock
  unfold enterOffline
  generalize releaseHoldings a (purge a (s.modSt a fun r => { r with state := .offline })) = u
  intro released noLock
  have settled : (u.modSt a fun r =>
      { r with ring := { r.ring with state := .disabled }, confirms := [], confirmOverflow := false }).OfflineIdle (some a) :=
    released.modSt rfl rfl fun _ _ => rfl
  refine ⟨settled.send, fun b off _ => ?_, fun l o held off => ?_, settled.pledged, settled.delivery⟩
  · by_cases e : b = a
    · subst e; simp
    · exact settled.ring b off fun same => e (Option.some.inj same).symm
  · obtain rfl := Option.some.inj (settled.held l o held off)
    exact absurd held (noLock l)

theorem quiesce_keeps_offlineIdle {s : State} (h : s.OfflineIdle none) {a : StationId}
    (noWait : ∀ p, (s.st a).send ≠ .awaitRoom p) : (quiesce a s).OfflineIdle none := by
  unfold quiesce
  split
  · rename_i quiet
    obtain ⟨-, noCopy, free⟩ := quiet
    refine enterOffline_keeps_offlineIdle h ?_ free
    cases send : (s.st a).send with
    | idle => rfl
    | awaitRoom p => exact absurd send (noWait p)
    | copying p d => simp [send, SendState.isCopying] at noCopy
  · exact h

end Sys2Proof.Machine
end

section
/-! What an OFFLINE station keeps without, continued: RETIRE, the enqueue attempt, the completed delivery, POST, and O51. -/

namespace Sys2Proof.Machine

-- One proof at a time: many at once take more threads than the check allows.
set_option Elab.async false

/-! ### Stations that are not OFFLINE -/

/-- A station that is not OFFLINE after the change is under no law of OFFLINE ones. -/
theorem State.OfflineIdle.modPresent {s : State} (h : s.OfflineIdle none) {a : StationId} {f : StationRec → StationRec}
    (present : (f (s.st a)).state ≠ .offline) (send : (f (s.st a)).send = (s.st a).send) : (s.modSt a f).OfflineIdle none := by
  have own : ((s.modSt a f).st a).state ≠ .offline := by rwa [State.st_modSt_same]
  have others : ∀ b, b ≠ a → (s.modSt a f).st b = s.st b := fun b ne => State.st_modSt_ne _ _ ne
  have away : ∀ b, ((s.modSt a f).st b).state = .offline → b ≠ a ∧ (s.st b).state = .offline := fun b off => by
    have ne : b ≠ a := fun same => own (same ▸ off)
    exact ⟨ne, others b ne ▸ off⟩
  refine ⟨fun b off => ?_, fun b off _ => ?_, fun l o held off => ?_, fun l o pledged => ?_, fun y hy off => ?_⟩
  · obtain ⟨ne, off⟩ := away b off
    rw [others b ne]
    exact h.send b off
  · obtain ⟨ne, off⟩ := away b off
    rw [others b ne]
    exact h.ring b off (by simp)
  · exact h.held l o held (away o off).2
  · have sends : ((s.modSt a f).st o).send = (s.st o).send := by
      by_cases e : o = a
      · subst e; simpa using send
      · rw [others o e]
    rw [sends]
    exact h.pledged l o pledged
  · exact h.delivery y hy (away _ off).2

/-! ### RETIRE -/

theorem endRoomWaits_ends {gone : List RoomEntry} {e : RoomEntry} (mem : e ∈ gone) (o : SendOutcome) (sent : Bool)
    (s : State) (p : Post) : ((endRoomWaits gone o sent s).st e.station).send ≠ .awaitRoom p := by
  induction gone generalizing s with
  | nil => simp at mem
  | cons x rest ih =>
    rcases List.mem_cons.mp mem with rfl | later
    · intro waits
      have before : ((endRoomWait e.station o sent s).st e.station).send = .awaitRoom p :=
        foldl_keeps (P := NoNewAwaiter (endRoomWait e.station o sent s))
          (fun t x h => h.trans (endRoomWait_noNewAwaiter x.station o sent t)) rest _ (.of_send fun _ => rfl) _ _ waits
      have waited := endRoomWait_noNewAwaiter e.station o sent s _ _ before
      rw [endRoomWait_send waited] at before
      simp at before
    · exact ih later _

/-- Once its entry is removed a station waits for room no more. -/
theorem removeWaiting_ends {s : State} {e : RoomEntry} (mem : e ∈ s.roomQueue) {p : RoomEntry → Bool} (meets : p e = true)
    (o : SendOutcome) (sent : Bool) (q : Post) : ((removeWaiting p o sent s).st e.station).send ≠ .awaitRoom q := by
  have ended := endRoomWaits_ends (List.mem_filter.mpr ⟨mem, meets⟩) o sent
    { s with roomQueue := s.roomQueue.filter fun e => !p e } q
  unfold removeWaiting
  dsimp only
  split
  · exact fun waits => ended (examineAmong_noNewAwaiter _ _ _ _ waits)
  · exact ended

theorem enterQuiescing_keeps_offlineIdle {s : State} (h : s.OfflineIdle none) (agrees : s.RoomQueueAgrees) (a : StationId) :
    (enterQuiescing a s).OfflineIdle none := by
  let t := s.modSt a fun r => { r with state := .quiescing }
  have quiescing : t.OfflineIdle none := h.modPresent (by simp) rfl
  have removed := (lawOfWaits_offlineIdle none).removeWaiting quiescing (fun e => e.station == a) .cancelled false
  have noWait : ∀ p, ((removeWaiting (fun e => e.station == a) .cancelled false t).st a).send ≠ .awaitRoom p := by
    intro p waits
    have before := removeWaiting_noNewAwaiter _ _ _ _ _ _ waits
    have sends : (t.st a).send = (s.st a).send := by simp [t]
    rw [sends] at before
    obtain ⟨-, e, mem, rfl⟩ := agrees.2.2 a p before
    exact removeWaiting_ends (s := t) mem (by simp) _ _ p waits
  have left : (s.leaving a).OfflineIdle none :=
    State.OfflineIdle.frame removed ⟨by simp [State.leaving, t], fun l => (leaveWait_lock a .cancelled _ l).1,
      by simp [State.leaving, t]⟩
  have abandoned := abandonDelivery_keeps_offlineIdle left a
  have silenced : (s.withdrawn a).OfflineIdle none :=
    abandoned.modSt rfl rfl fun _ off => off
  rw [enterQuiescing_eq]
  refine quiesce_keeps_offlineIdle silenced fun p waits => noWait p ?_
  simpa [State.withdrawn, State.leaving, StationRec.silence] using waits

/-! ### The enqueue attempt -/

theorem setLockState_lock (k : Option LockId) (st : LockState) (s : State) (l : LockId) :
    ((setLockState k st s).lock l).state = if k = some l then st else (s.lock l).state := by
  unfold setLockState
  cases k with
  | none => simp
  | some k =>
    by_cases e : l = k
    · subst e; simp
    · simp [e, Ne.symm e]

theorem State.OfflineIdle.setLockState {s : State} (h : s.OfflineIdle none) (k : Option LockId) {st : LockState}
    (pledged : ∀ o, st ≠ .pledged o) (held : ∀ o, st = .held o → (s.st o).state ≠ .offline) :
    (setLockState k st s).OfflineIdle none := by
  cases k with
  | none => exact h
  | some k =>
    refine h.lockChange (k := k) (by simp) (by simp) (fun l ne => ?_) (fun o heldBy off => ?_) fun o pledgedBy => ?_
    · rw [setLockState_lock, if_neg]
      exact fun same => ne (Option.some.inj same).symm
    · rw [setLockState_lock, if_pos rfl] at heldBy
      exact absurd off (held o heldBy)
    · rw [setLockState_lock, if_pos rfl] at pledgedBy
      exact pledged o pledgedBy

/-- A post ends once no lock is PLEDGED to it. -/
theorem State.OfflineIdle.endPost {s : State} (h : s.OfflineIdle none) {a : StationId} (p : Post) (o : SendOutcome)
    (free : ∀ l, (s.lock l).state ≠ .pledged a) : (endPost a p o s).OfflineIdle none := by
  let t := Machine.endPost a p o s
  have states : ∀ b, (t.st b).state = (s.st b).state ∧ (t.st b).ring = (s.st b).ring := fun b => by simp [t]
  have own : (t.st a).send = .idle := by simp [t, Machine.endPost]
  have others : ∀ b, b ≠ a → (t.st b).send = (s.st b).send := fun b ne => by simp [t, ne]
  show t.OfflineIdle none
  refine ⟨fun b off => ?_, fun b off away => ?_, fun l b held off => ?_, fun l b pledged => ?_, fun y hy => ?_⟩
  · by_cases e : b = a
    · rw [e, own]
    · rw [others b e]
      exact h.send b ((states b).1 ▸ off)
  · rw [(states b).2]
    exact h.ring b ((states b).1 ▸ off) away
  · exact h.held l b held ((states b).1 ▸ off)
  · have ne : b ≠ a := fun same => free l (same ▸ pledged)
    rw [others b ne]
    exact h.pledged l b pledged
  · rw [(states _).1]
    exact h.delivery y hy

theorem attemptEnqueue_keeps_offlineIdle {s : State} (h : s.OfflineIdle none) {a : StationId} {p : Post} {d : DescId}
    {m : Message} (copies : (s.st a).send = .copying p d) (hm : s.msg d = some m) (source : m.source = a)
    (lock : m.carriedLock = p.passLock) : (attemptEnqueue a p d m s).OfflineIdle none := by
  have present : (s.st a).state ≠ .offline := fun off => by simp [h.send a off] at copies
  have unpledged : ∀ st : LockState, st ≠ .pledged a → ∀ l,
      ((setLockState m.carriedLock st s).lock l).state ≠ .pledged a := fun st ne l pledged => by
    rw [setLockState_lock] at pledged
    split at pledged
    · exact ne pledged
    · rename_i notOwn
      obtain ⟨q, hq, passes⟩ := h.pledged l a pledged
      rw [copies] at hq
      obtain rfl : p = q := Option.some.inj hq
      exact notOwn (lock.trans passes)
  unfold attemptEnqueue
  split
  · have queued : (enqueue d m s).OfflineIdle none := h.frame ⟨by simp, by simp, by simp⟩
    have carried := queued.setLockState m.carriedLock (st := .carried d) (by simp) (by simp)
    refine State.OfflineIdle.frame (carried.endPost p .ok fun l => ?_) (.setSource _ _ _)
    have same : ((setLockState m.carriedLock (.carried d) (enqueue d m s)).lock l).state =
        ((setLockState m.carriedLock (.carried d) s).lock l).state := by
      rw [setLockState_lock, setLockState_lock]
      simp
    rw [same]
    exact unpledged _ (by simp) l
  · have returned := h.setLockState m.carriedLock (st := .held m.source) (by simp) fun o held => by
      obtain rfl := LockState.held.inj held
      rwa [source]
    have freed : ((setLockState m.carriedLock (.held m.source) s).freed d m).OfflineIdle none :=
      returned.frame ⟨by simp, by simp, by simp⟩
    have examined := (lawOfWaits_offlineIdle none).examine freed
    rw [endFailedEnqueue_of_msg hm]
    refine State.OfflineIdle.frame (State.OfflineIdle.endPost examined p _ fun l => ?_) (.setSource _ _ _)
    have same : (examine ((setLockState m.carriedLock (.held m.source) s).freed d m)).lock l =
        (setLockState m.carriedLock (.held m.source) s).lock l := by
      simp [State.lock]
    rw [same]
    exact unpledged _ (by simp) l

/-! ### POST -/

theorem State.OfflineIdle.joinRoomQueue {s : State} (h : s.OfflineIdle none) {a : StationId} {p : Post}
    (online : (s.st a).state = .online) (idle : (s.st a).send = .idle) :
    (joinRoomQueue a p (acceptPost a p s)).OfflineIdle none := by
  let t := Machine.joinRoomQueue a p (acceptPost a p s)
  have states : ∀ b, (t.st b).state = (s.st b).state ∧ (t.st b).ring = (s.st b).ring := fun b => by simp [t]
  have own : (t.st a).send = .awaitRoom p := by simp [t, Machine.joinRoomQueue]
  have others : ∀ b, b ≠ a → (t.st b).send = (s.st b).send := fun b ne => by simp [t, ne]
  have locks : ∀ l, (t.lock l).state = if p.passLock = some l then .pledged a else (s.lock l).state := fun l => by
    have same : t.lock l = (acceptPost a p s).lock l := by simp [t]
    rw [same, State.lock, acceptPost_locks]
    exact setLockState_lock p.passLock (.pledged a) s l
  show t.OfflineIdle none
  refine ⟨fun b off => ?_, fun b off away => ?_, fun l o held off => ?_, fun l o pledged => ?_, fun y hy => ?_⟩
  · rw [(states b).1] at off
    have ne : b ≠ a := fun same => by simp [same, online] at off
    rw [others b ne]
    exact h.send b off
  · rw [(states b).2]
    exact h.ring b ((states b).1 ▸ off) away
  · rw [locks] at held
    split at held
    · simp at held
    · exact h.held l o held ((states o).1 ▸ off)
  · rw [locks] at pledged
    split at pledged
    · rename_i own_lock
      obtain rfl := LockState.pledged.inj pledged
      exact ⟨p, by rw [own]; rfl, own_lock⟩
    · obtain ⟨q, hq, passes⟩ := h.pledged l o pledged
      have ne : o ≠ a := fun same => by simp [same, idle, SendState.post] at hq
      rw [others o ne]
      exact ⟨q, hq, passes⟩
  · rw [(states _).1]
    refine h.delivery y ?_
    simpa [t] using hy

theorem State.OfflineIdle.postNow {s : State} (h : s.OfflineIdle none) {a : StationId} {p : Post}
    (online : (s.st a).state = .online) (idle : (s.st a).send = .idle) {d : DescId} {rest : List DescId}
    (room : s.freeDescs = d :: rest) : (Machine.allocate a p (acceptPost a p s)).OfflineIdle none := by
  have waits : ((Machine.joinRoomQueue a p (acceptPost a p s)).st a).send = .awaitRoom p := by simp [Machine.joinRoomQueue]
  have waiting : (Machine.joinRoomQueue a p (acceptPost a p s)).freeDescs = d :: rest := by simp [room]
  have accepted : (acceptPost a p s).freeDescs = d :: rest := by simp [room]
  refine ((h.joinRoomQueue online idle).allocate waits).frame ⟨fun b => ?_, fun l => ?_, by simp⟩
  · by_cases same : b = a
    · subst same
      rw [allocate_station accepted, allocate_station waiting]
      simp
    · simp [same]
  · simp [State.lock]

/-! ### The timers -/

theorem expireRoomWait_keeps_offlineIdle {s : State} (h : s.OfflineIdle none) (a : StationId) :
    (expireRoomWait a s).OfflineIdle none := by
  unfold expireRoomWait
  split
  · exact (lawOfWaits_offlineIdle none).removeWaiting h _ _ _
  · exact h

theorem leaveWait_keeps_offlineIdle {s : State} (h : s.OfflineIdle none) (a : StationId) (o : WaitOutcome) :
    (leaveWait a o s).OfflineIdle none :=
  h.frame ⟨by simp, fun l => (leaveWait_lock a o s l).1, by simp⟩

theorem expireLockWait_keeps_offlineIdle {s : State} (h : s.OfflineIdle none) (a : StationId) :
    (expireLockWait a s).OfflineIdle none := by
  unfold expireLockWait
  split
  · exact (leaveWait_keeps_offlineIdle h a .timeout).frame (.setSource _ _ _)
  · exact h

theorem expireResponse_keeps_offlineIdle {s : State} (h : s.OfflineIdle none) : (expireResponse s).OfflineIdle none := by
  unfold expireResponse
  split
  · rename_i engine
    split
    · exact faultDelivery_keeps_offlineIdle h (by rw [engine]; rfl) _ _
    · exact h
  · exact h

theorem expireDue_keeps_offlineIdle {s : State} (h : s.OfflineIdle none) : (expireDue s).OfflineIdle none :=
  expireResponse_keeps_offlineIdle
    (foldl_keeps (P := State.OfflineIdle none) (fun _ a ht => expireLockWait_keeps_offlineIdle ht a) _ _
      (foldl_keeps (P := State.OfflineIdle none) (fun _ a ht => expireRoomWait_keeps_offlineIdle ht a) _ _ h))

theorem tickAll_keeps_offlineIdle {s : State} (h : s.OfflineIdle none) : (tickAll s).OfflineIdle none :=
  h.frame ⟨fun b => by simp [tickAll, State.st, StationRec.ticked], fun _ => rfl, by simp [tickAll]⟩

theorem clkPeriod_keeps_offlineIdle {s : State} (h : s.OfflineIdle none) : (clkPeriod s).OfflineIdle none := by
  have expired := expireDue_keeps_offlineIdle h
  have counted : ∀ u : State, u.OfflineIdle none → ∀ n, ({ u with tickCount := n } : State).OfflineIdle none := fun u hu n =>
    hu.frame ⟨fun _ => ⟨rfl, rfl, rfl⟩, fun _ => rfl, rfl⟩
  unfold clkPeriod
  dsimp only
  split
  · exact expireDue_keeps_offlineIdle (tickAll_keeps_offlineIdle expired)
  · exact counted _ expired _

/-! ### O51 -/

theorem reset_offlineIdle (v : StationId) (q : List Instr) :
    ({ State.reset with supervisor := v, pending := q } : State).OfflineIdle none := by
  have stations : ∀ a, State.reset.st a = StationRec.reset := fun a => by simp [State.st, State.reset]
  have locks : ∀ l, (State.reset.lock l).state = .free := fun l => by simp [State.lock, State.reset]
  have reset : State.reset.OfflineIdle none := by
    constructor
    case send => simp [stations, StationRec.reset]
    case ring => simp [stations, StationRec.reset, Ring.reset]
    case held => simp [locks]
    case pledged => simp [locks]
    case delivery => simp [State.reset, EngineState.delivery]
  have apart : ∀ s : State, s.OfflineIdle none → ({ s with supervisor := v, pending := q } : State).OfflineIdle none :=
    fun s h => h.frame ⟨fun _ => ⟨rfl, rfl, rfl⟩, fun _ => rfl, rfl⟩
  exact apart _ reset

theorem completeDelivery_keeps_offlineIdle {s : State} (h : s.OfflineIdle none) (placed : s.MessagesPlaced) {d : Delivery}
    (engine : s.engine.delivery = some d) : (completeDelivery d s).OfflineIdle none := by
  have present : (s.st d.station).state ≠ .offline := h.delivery d engine
  have advanced : (advanceRing d s).OfflineIdle none := h.modSt rfl rfl fun off => absurd off present
  have ended : (endMessage .delivered d.desc (advanceRing d s)).OfflineIdle none := by
    refine advanced.endMessage .delivered d.desc fun _ m hm => ?_
    obtain ⟨m', hm', -, dest, -⟩ := placed.delivering d engine
    obtain rfl := Option.some.inj (hm.symm.trans hm')
    rw [dest]
    simpa using present
  have announced : (setSource d.station (srcArrive d.cls) (endMessage .delivered d.desc (advanceRing d s))).OfflineIdle none :=
    ended.frame (.setSource _ _ _)
  exact State.OfflineIdle.advanceBurst (settleRing_keeps_offlineIdle announced (by simpa using present))

theorem takeHead_keeps_offlineIdle {s : State} (h : s.OfflineIdle none) {a : StationId} (online : (s.st a).state = .online)
    (c : ClassId) (d : DescId) : (takeHead a c d s).OfflineIdle none := by
  cases hm : s.msg d with
  | none => rwa [takeHead, hm]
  | some m =>
    let u := (s.modSt a fun r => { r.setQueue c (r.queue c).tail with
      readSlot := some { desc := d, header0 := headerWord0 m, header1 := headerWord1 m } }).setMsg d
        (some { m with state := .reading, carriedLock := none })
    have moved : (s.modSt a fun r => { r.setQueue c (r.queue c).tail with
        readSlot := some { desc := d, header0 := headerWord0 m, header1 := headerWord1 m } }).OfflineIdle none :=
      h.modSt rfl rfl fun _ off => off
    have taken : u.OfflineIdle none := State.OfflineIdle.frame moved ⟨fun _ => ⟨rfl, rfl, rfl⟩, fun _ => rfl, rfl⟩
    have there : (u.st a).state ≠ .offline := by
      have same : (u.st a).state = (s.st a).state := by simp [u, StationRec.setQueue]
      simp [same, online]
    rw [takeHead, hm]
    show (passCarried m.carriedLock a u).OfflineIdle none
    unfold passCarried
    split
    · exact taken.passLock _ there
    · exact taken

/-- Every effect keeps OFFLINE stations idle, from a state whose room queue and messages are in order. -/
theorem Effect.keeps_offlineIdle {i : Instr} {s t : State} (h : Effect i s t) (idle : s.OfflineIdle none)
    (agrees : s.RoomQueueAgrees) (placed : s.MessagesPlaced) : t.OfflineIdle none := by
  cases h
  case nothing => exact idle
  case setting a f same words => exact idle.modSt same.state same.send fun _ off => same.ringState.trans off
  case register a k w =>
    refine idle.modSt ?_ ?_ fun _ off => ?_
    all_goals unfold StationRec.storePlain; split
    all_goals trivial
  case fault a code detail => exact idle.frame ⟨by simp, by simp, by simp⟩
  case attach a _ off => exact idle.modPresent (by simp [StationRec.attached]) rfl
  case retire a _ _ _ => exact enterQuiescing_keeps_offlineIdle idle agrees a
  case postNow a ch len pass l _ online checked _ fits =>
    obtain ⟨rest, _⟩ := bound_of_checkPost checked
    obtain ⟨d, more, room⟩ : ∃ d more, s.freeDescs = d :: more := by
      cases free : s.freeDescs with
      | nil => simp [State.fits, free] at fits
      | cons d more => exact ⟨d, more, rfl⟩
    exact idle.postNow online rest room
  case postWait a ch len pass l _ online checked =>
    exact State.OfflineIdle.joinRoomQueue idle online (bound_of_checkPost checked).1
  case endWaiting a o sent => exact (lawOfWaits_offlineIdle none).removeWaiting idle _ _ _
  case closeChannel ch =>
    have closed : (s.modChan ch fun e => { e with state := .closed }).OfflineIdle none :=
      idle.frame ⟨fun _ => ⟨rfl, rfl, rfl⟩, fun _ => rfl, rfl⟩
    exact (lawOfWaits_offlineIdle none).removeWaiting closed _ _ _
  case take a c d rest online _ _ _ => exact takeHead_keeps_offlineIdle idle online c d
  case release a slot _ _ =>
    have emptied : (s.modSt a fun r => { r with readSlot := none }).OfflineIdle none := idle.modSt rfl rfl fun _ off => off
    exact emptied.endMessage .released slot.desc (by simp)
  case takeLock a l online _ =>
    exact State.OfflineIdle.setLockState idle (some l) (by simp) fun o held => by
      obtain rfl := LockState.held.inj held
      simp [online]
  case joinWaiters a l _ =>
    refine idle.frame ⟨by simp, fun k => ?_, by simp⟩
    by_cases same : k = l
    · subst same; simp [Machine.joinWaiters]
    · simp [Machine.joinWaiters, same]
  case handoff a l _ => exact State.OfflineIdle.handoff idle l
  case revoke a l _ =>
    have recorded : (recordFault a .lockRevoked (BitVec.ofNat 32 l.val) s).OfflineIdle none :=
      idle.frame ⟨by simp, by simp, by simp⟩
    exact recorded.handoff l
  case cancelWait a => exact leaveWait_keeps_offlineIdle idle a .cancelled
  case setTick | setEngine | openChannel | reassert => exact idle.frame ⟨fun _ => ⟨rfl, rfl, rfl⟩, fun _ => rfl, rfl⟩
  case ring a f _ present =>
    refine State.OfflineIdle.startIfIdle (idle.modSt rfl rfl fun off disabled => ?_)
    rcases present with on | online
    · exact absurd disabled on
    · simp [online] at off
  case disabling a online => exact idle.modSt rfl rfl fun off => by simp [online] at off
  case disableRing a online =>
    rw [disableRing_eq]
    exact idle.modSt rfl rfl fun off => by simp [online] at off
  case reset v => exact reset_offlineIdle v s.pending
  case tick => exact tickAll_keeps_offlineIdle (expireDue_keeps_offlineIdle idle)
  case roomTimer a => exact expireRoomWait_keeps_offlineIdle idle a
  case waitTimer a => exact expireLockWait_keeps_offlineIdle idle a
  case responseTimer => exact expireResponse_keeps_offlineIdle idle
  case copyCompletion a p d m copies hm =>
    obtain ⟨m', hm', -, source, -, -, -, -, -, -, lock, -⟩ := placed.copying a p d copies
    obtain rfl := Option.some.inj (hm.symm.trans hm')
    let u : State := { s with cellStore := copyPayload m.cells m.length (s.st a).staging s.cellStore }
    have copied : u.OfflineIdle none := idle.frame ⟨fun _ => ⟨rfl, rfl, rfl⟩, fun _ => rfl, rfl⟩
    have tried := attemptEnqueue_keeps_offlineIdle copied copies hm source lock
    refine quiesce_keeps_offlineIdle (State.OfflineIdle.startIfIdle tried) fun q waits => ?_
    have ended : ((attemptEnqueue a p d m u).st a).send = .idle := by
      unfold attemptEnqueue
      split <;> simp [endPost]
    rw [show ((startIfIdle (attemptEnqueue a p d m u)).st a).send = ((attemptEnqueue a p d m u).st a).send by simp,
      ended] at waits
    simp at waits
  case busGrant d engine =>
    exact idle.frame ⟨fun _ => ⟨rfl, rfl, rfl⟩, fun _ => rfl, by rw [engine]; rfl⟩
  case nextWrite d c w engine =>
    exact ⟨idle.send, idle.ring, idle.held, idle.pledged, fun y hy => by
      obtain rfl := Option.some.inj hy
      exact idle.delivery d (by rw [engine]; rfl)⟩
  case complete d c engine => exact completeDelivery_keeps_offlineIdle idle placed (by rw [engine]; rfl)
  case faultDelivery d c code addr engine => exact faultDelivery_keeps_offlineIdle idle (by rw [engine]; rfl) code addr
  case retry d c engine =>
    exact ⟨idle.send, idle.ring, idle.held, idle.pledged, fun y hy => by
      obtain rfl := Option.some.inj hy
      exact idle.delivery d (by rw [engine]; rfl)⟩
  case staging | clearFlags | queueLimit | popConfirm | clearOverflow | acknowledge | endService =>
    exact idle.modSt rfl rfl fun _ off => off

theorem Answered.keeps_offlineIdle {u t : State} (h : Answered u t) (idle : u.OfflineIdle none) : t.OfflineIdle none := by
  cases h
  case same => exact idle
  case access x => exact idle.frame ⟨fun _ => ⟨rfl, rfl, rfl⟩, fun _ => rfl, rfl⟩
  case command a result x =>
    have named : (u.modSt a fun r => { r with result }).OfflineIdle none := idle.modSt rfl rfl fun _ off => off
    exact named.frame ⟨fun _ => ⟨rfl, rfl, rfl⟩, fun _ => rfl, rfl⟩

theorem step_keeps_offlineIdle {s t : State} (idle : s.OfflineIdle none) (agrees : s.RoomQueueAgrees)
    (placed : s.MessagesPlaced) (h : step s = .next t) : t.OfflineIdle none := by
  cases queue : s.pending with
  | nil =>
    have period : step s = .next (clkPeriod s) := by
      unfold step
      rw [queue]
    rw [period] at h
    obtain rfl := Host.Outcome.next.inj h
    exact clkPeriod_keeps_offlineIdle idle
  | cons i rest =>
    obtain ⟨u, effect, answered⟩ := exec_leaves i { s with pending := rest } t (stepRunsTheFrontCommand i rest s queue ▸ h)
    refine answered.keeps_offlineIdle (effect.keeps_offlineIdle ?_ agrees ?_)
    · exact idle.frame ⟨fun _ => ⟨rfl, rfl, rfl⟩, fun _ => rfl, rfl⟩
    · exact ⟨placed.copying, placed.queued, placed.delivering, placed.reading, placed.placed, placed.carried, placed.pledged⟩

/-- Settles O51: sources and lists by the updates one at a time, what an OFFLINE station keeps without by the effects of the
commands. -/
theorem absentStationsKeepHoldingNothing : Obligations.AbsentStationsKeepHoldingNothing := by
  unfold Obligations.AbsentStationsKeepHoldingNothing
  refine ⟨fun s t h next => ?_, fun s t offline agrees placed rings next => ?_⟩
  · exact (t.absentStationsHoldNothing_iff).mpr
      (holdNothing_keptByUpdates.keepsStep s t (s.absentStationsHoldNothing_iff.mp h) next)
  · exact (step_keeps_offlineIdle (offline.offlineIdle placed rings) agrees placed next).stationsIdle

end Sys2Proof.Machine
end

section
/-! Commands and register writes that pass their checks, said once: what is left is the judgement of the owning block. With
them RESULT and the plain registers (O8, O9, O11, O20, O45). -/

namespace Sys2Proof.Machine

-- One proof at a time: many at once take more threads than the check allows.
set_option Elab.async false

section
variable {a : StationId} {command : BitVec 8} {body : State → State × ResultCode} {s t : State} {code : ResultCode}

/-- A station command of an ONLINE station ends as its block judges. -/
theorem answered_of_station (hb : s.bown = false) (online : (s.st a).state = .online) (judged : body s = (t, code)) :
    (.next (runCommand a command (checkStation a) body s) : Host.Outcome State Fault Refusal) =
      .next (answered a command code t) := by
  rw [runCommand_eq hb (checkStation_online online), judged]

/-- A supervisor command of the ONLINE supervisor ends as its block judges. -/
theorem answered_of_supervisor (hb : s.bown = false) (supervisor : a = s.supervisor) (online : (s.st a).state = .online)
    (judged : body s = (t, code)) :
    (.next (runCommand a command (checkSupervisor a) body s) : Host.Outcome State Fault Refusal) =
      .next (answered a command code t) := by
  rw [runCommand_eq hb (checkSupervisor_ok supervisor online), judged]

/-- A write access on a free bus leaves what it stores. -/
theorem written_of_access {f : State → State} (hb : s.bown = false) (stored : f s = t) :
    (.next (writeAccess f s) : Host.Outcome State Fault Refusal) = .next (written t) := by
  rw [writeAccess_eq hb, stored]
end

/-! ### Plain registers -/

section
variable {a : StationId} {f : StationRec → StationRec} {s : State}

theorem configure_of_online (online : (s.st a).state = .online) : configure a f s = s.modSt a f := if_pos online

theorem configure_of_not_online (away : (s.st a).state ≠ .online) : configure a f s = s := if_neg away
end

/-- The words of an aperture that hold no plain value ignore a write (R181). -/
theorem StationRec.storePlain_ignored {k : ApertureWord} (other : k ≠ .supOperand ∧ k ≠ .sendTag ∧ k ≠ .ringBase ∧
    k ≠ .ringSlots ∧ k ≠ .ringIndexAddr) (r : StationRec) (w : Word) : r.storePlain k w = r := by
  unfold StationRec.storePlain
  split <;> simp_all

theorem low_bits (w : Word) (n : Nat) : w.setWidth n = w.extractLsb' 0 n := by
  ext i hi
  simp

theorem shifted_bits (w : Word) (lo n : Nat) : (w >>> lo).setWidth n = w.extractLsb' lo n := by
  ext i hi
  simp

/-- Settles O8: WAIT_LIMITS by the state of its station, each plain word by what it stores, any other by storing nothing. -/
theorem registerWritesStoreOrAreIgnored : Obligations.RegisterWritesStoreOrAreIgnored := by
  intro a w s hb
  refine ⟨fun online => ?limits, fun away => ?no_limits, ?operand, ?tag, ?base, ?slots, ?index, fun t _ other => ?ignored⟩
  case limits => exact written_of_access hb (by rw [if_pos online, low_bits, shifted_bits])
  case no_limits => exact written_of_access hb (if_neg away)
  case operand => exact written_of_access hb rfl
  case tag => exact written_of_access hb (by simp only [StationRec.storePlain, low_bits])
  case base => exact written_of_access hb rfl
  case slots => exact written_of_access hb rfl
  case index => exact written_of_access hb rfl
  case ignored =>
    refine written_of_access hb ?_
    cases t with
    | global g => rfl
    | aperture b k =>
      refine s.modSt_self b (StationRec.storePlain_ignored ?_ _ w)
      simpa using other b

/-- Settles O9: the two judgements by the ranges of their operands. -/
theorem setTickAndSetEngine : Obligations.SetTickAndSetEngine := by
  intro a response retry burst s hb supervisor online
  refine ⟨fun low high => ?ticks, fun out => ?no_ticks, fun pos least most => ?engine, fun out => ?no_engine⟩
  case ticks => exact answered_of_supervisor hb supervisor online (if_neg (by simp only [Config.minTickDiv, Config.maxTickDiv]; omega))
  case no_ticks => exact answered_of_supervisor hb supervisor online (if_pos (by simp only [Config.minTickDiv, Config.maxTickDiv]; omega))
  case engine =>
    refine answered_of_supervisor hb supervisor online ?_
    rw [if_neg (Fin.pos_iff_ne_zero.mp pos), if_neg]
    rintro (zero | high)
    · exact Fin.pos_iff_ne_zero.mp least zero
    · omega
  case no_engine =>
    refine answered_of_supervisor hb supervisor online ?_
    rcases out with zero | out
    · exact if_pos (Fin.ext zero)
    · split
      · rfl
      · exact if_pos (out.imp_left fun zero => Fin.ext zero)

/-- Settles O11: the check of ATTACH lets both states by, and the judgement tells them apart. -/
theorem attachFromOffline : Obligations.AttachFromOffline := by
  intro a s hb
  have passes : (s.st a).state ≠ .quiescing → checkAttach a s = none := fun h => if_neg h
  refine ⟨fun offline => ?attached, fun online => ?refused⟩
  case attached =>
    show Host.Outcome.next (runCommand a 0x01 (checkAttach a) _ s) = _
    rw [runCommand_eq hb (passes (by simp [offline])), if_pos offline]
    rfl
  case refused =>
    show Host.Outcome.next (runCommand a 0x01 (checkAttach a) _ s) = _
    rw [runCommand_eq hb (passes (by simp [online])), if_neg (by simp [online])]

/-- Settles O20: IDLE stores the word, the other two send states record the collision. -/
theorem stagingWriteStoresOrCollides : Obligations.StagingWriteStoresOrCollides := by
  intro a k w s hb
  refine ⟨fun idle => ?stored, fun busy => ?collides⟩
  case stored => exact written_of_access hb (by rw [idle])
  case collides =>
    refine written_of_access hb ?_
    rw [← recordFault_eq]
    split
    · exact absurd ‹_› busy
    · rfl

/-- Settles O45: the settings by the state of the station, the clearing writes in any. -/
theorem notificationAndClearingWrites : Obligations.NotificationAndClearingWrites := by
  intro a w s hb
  refine ⟨?pending, fun online => ⟨?enable, ?disarm, ?levels, ?base⟩,
    fun away => ⟨?no_enable, ?no_disarm, ?no_levels, ?no_base⟩, ?service, ?fault, ?confirm⟩
  case pending => exact written_of_access hb (by rw [low_bits])
  case enable | disarm | levels | base => exact written_of_access hb (by rw [configure_of_online online, low_bits])
  case no_enable | no_disarm | no_levels | no_base => exact written_of_access hb (configure_of_not_online away)
  case service | fault | confirm => exact written_of_access hb rfl

end Sys2Proof.Machine
end

section
/-! Locks and rings (spec chapters 6 and 7): the commands of the owning blocks case by case (O31 to O35, O37 to O39). -/

namespace Sys2Proof.Machine

-- One proof at a time: many at once take more threads than the check allows.
set_option Elab.async false

/-! ### Locks -/

/-- A station owns a lock that is HELD or PLEDGED with it as owner (section 6.1). -/
theorem LockState.ownedBy_iff (st : LockState) (a : StationId) :
    st.ownedBy a = true ↔ st = .held a ∨ st = .pledged a := by
  cases st <;> simp [LockState.ownedBy]

/-- Settles O31: the three ends of TRY_LOCK, and of ACQUIRE the wait or BUSY beside them. -/
theorem acquireAndTryLock : Obligations.AcquireAndTryLock := by
  intro a l s hb online
  refine ⟨fun free => ?taken, fun own => ?held, fun notFree notHeld notPledged => ?busy⟩
  case taken => exact ⟨answered_of_station hb online (if_pos free), answered_of_station hb online (if_pos free)⟩
  case held =>
    have owned : (s.lock l).state.ownedBy a = true := (LockState.ownedBy_iff _ a).mpr own
    have notFree : (s.lock l).state ≠ .free := by rcases own with h | h <;> simp [h]
    exact ⟨answered_of_station hb online (by rw [if_neg notFree, if_pos owned]),
      answered_of_station hb online (by rw [if_neg notFree, if_pos owned])⟩
  case busy =>
    have strange : ¬ (s.lock l).state.ownedBy a = true := fun owned =>
      ((LockState.ownedBy_iff _ a).mp owned).elim notHeld notPledged
    refine ⟨answered_of_station hb online (by rw [if_neg notFree, if_neg strange]), fun waits => ?_, fun none => ?_⟩
    · exact answered_of_station hb online (by rw [if_neg notFree, if_neg strange, if_pos waits])
    · exact answered_of_station hb online (by rw [if_neg notFree, if_neg strange, if_neg (by simp [none])]; rfl)

/-- A head that is not ONLINE is dropped: the handoff is that of the state it has left. -/
theorem handoff_of_absent {l : LockId} {s : State} {w : StationId} {rest : List StationId}
    (waiters : (s.lock l).waiters = w :: rest) (away : (s.st w).state ≠ .online) :
    handoff l s = handoff l ((s.setLock l { state := (s.lock l).state, waiters := rest }).modSt w fun r =>
      { r with wait := none, lastWait := .cancelled }) := by
  have dropped : (s.setLock l { state := (s.lock l).state, waiters := rest }).modSt w
      (fun r => { r with wait := none, lastWait := .cancelled }) =
        (endWait w .cancelled s).setLock l { state := (s.lock l).state, waiters := rest } := rfl
  rw [dropped]
  unfold handoff
  rw [handoffAmong_setLock, State.lock_setLock_same, waiters, handoffAmong, if_neg away]

/-- Settles O32: no waiter, an ONLINE head, a head that is dropped. -/
theorem lockHandoff : Obligations.LockHandoff := by
  intro l s
  refine ⟨handoff_of_nil, fun w rest waiters => ⟨fun online => ?_, handoff_of_absent waiters⟩⟩
  rw [handoff, waiters, handoffAmong, if_pos online, setSource_eq, endWait, State.modSt_modSt]
  rfl

/-- Settles O33: each lock state in turn. -/
theorem releaseLockAndForceRelease : Obligations.ReleaseLockAndForceRelease := by
  intro a l s hb online
  refine ⟨fun held => ?released, fun pledged => ?pledged, fun notHeld notPledged => ?not_owned, fun supervisor =>
    ⟨fun o held => ?revoked, fun o pledged => ?force_pledged, fun d carried => ?force_carried, fun free => ?force_free⟩⟩
  case released => exact answered_of_station hb online (if_pos held)
  case pledged => exact answered_of_station hb online (by rw [if_neg (by simp [pledged]), if_pos pledged])
  case not_owned => exact answered_of_station hb online (by rw [if_neg notHeld, if_neg notPledged])
  case revoked => exact answered_of_supervisor hb supervisor online (by simp only [held, recordFault_eq])
  case force_pledged => exact answered_of_supervisor hb supervisor online (by simp only [pledged])
  case force_carried => exact answered_of_supervisor hb supervisor online (by simp only [carried])
  case force_free => exact answered_of_supervisor hb supervisor online (by simp only [free])

theorem leaveWait_of_wait {a : StationId} {o : WaitOutcome} {s : State} {w : LockWait} (waits : (s.st a).wait = some w) :
    leaveWait a o s = (s.setLock w.lock { state := (s.lock w.lock).state, waiters := (s.lock w.lock).waiters.erase a }).modSt a
      fun r => { r with wait := none, lastWait := o } := by
  rw [leaveWait, waits]
  rfl

/-- Settles O34: the cancel, the due expiry and the expiry that is not due; and the station that does not wait. -/
theorem lockWaitEndsByCancelOrTimer : Obligations.LockWaitEndsByCancelOrTimer := by
  intro a s
  refine ⟨fun w waits => ⟨fun hb online => ?cancelled, fun due => ?expired, fun running => ?not_due⟩,
    fun none => ⟨?no_wait, fun hb online => ?not_waiting⟩⟩
  case cancelled =>
    refine answered_of_station hb online ?_
    rw [if_pos (by simp [waits]), leaveWait_of_wait waits]
  case expired =>
    have isDue : waitTimerDue a s = true := (waitTimerDue_iff a s).mpr ⟨w, waits, due⟩
    show Host.Outcome.next (expireLockWait a s) = _
    rw [expireLockWait, if_pos isDue, setSource_eq, leaveWait_of_wait waits, State.modSt_modSt]
    rfl
  case not_due =>
    show Host.Outcome.next (expireLockWait a s) = _
    rw [expireLockWait, if_neg]
    intro isDue
    obtain ⟨w', hw', due⟩ := (waitTimerDue_iff a s).mp isDue
    rw [waits] at hw'
    obtain rfl := Option.some.inj hw'
    exact running due
  case no_wait =>
    show Host.Outcome.next (expireLockWait a s) = _
    rw [expireLockWait, if_neg]
    simp [waitTimerDue, none]
  case not_waiting => exact answered_of_station hb online (if_neg (by simp [none]))

/-- Settles O35: the two operand checks, the two of the entry, and the entry written. -/
theorem openChannelWritesTheEntry : Obligations.OpenChannelWritesTheEntry := by
  intro a ch dest c hold confirm pass limit s hb supervisor online
  refine ⟨fun bad => ?operand, fun pos fits => ⟨fun used => ?in_use, fun closed unused => ?opened⟩⟩
  case operand =>
    refine answered_of_supervisor hb supervisor online ?_
    rcases bad with zero | high
    · exact if_pos (Fin.ext zero)
    · by_cases zero : limit = 0
      · exact if_pos zero
      · rw [if_neg zero, if_pos high]
  case in_use =>
    refine answered_of_supervisor hb supervisor online ?_
    rw [if_neg (Fin.pos_iff_ne_zero.mp pos), if_neg (Nat.not_lt.mpr fits)]
    rcases used with opened | counted
    · exact if_pos opened
    · by_cases opened : (s.chan ch).state = .opened
      · exact if_pos opened
      · rw [if_neg opened, if_pos counted]
  case opened =>
    refine answered_of_supervisor hb supervisor online ?_
    rw [if_neg (Fin.pos_iff_ne_zero.mp pos), if_neg (Nat.not_lt.mpr fits), if_neg (by simp [closed]),
      if_neg (by simp [unused]), low_bits]
    simp only [State.modChan, unused]

/-! ### Rings -/

/-- Settles O37: the setup checks through `setupValid_iff`, the resumed ring by its fill. -/
theorem enableAndResumeRing : Obligations.EnableAndResumeRing := by
  intro a s g hb online hg
  subst hg
  refine ⟨fun used => ?in_use, fun off => ⟨fun valid => ?enabled, fun invalid => ?invalid⟩, fun faulted => ?resumed,
    fun other => ?not_waiting⟩
  case in_use => exact answered_of_station hb online (if_pos used)
  case enabled =>
    have checked := (setupValid_iff _).mpr valid
    exact answered_of_station hb online (by rw [if_neg (not_not.mpr off), if_neg (by simp [checked])]; rfl)
  case invalid =>
    have failed : (s.st a).ring.setupValid = false :=
      Bool.eq_false_iff.mpr fun valid => invalid ((setupValid_iff _).mp valid)
    exact answered_of_station hb online (by rw [if_neg (not_not.mpr off), if_pos failed])
  case resumed => exact answered_of_station hb online (if_pos faulted)
  case not_waiting => exact answered_of_station hb online (if_neg other)

/-- Settles O38: each ring state in turn. -/
theorem disableRingAtOnceOrThroughDisabling : Obligations.DisableRingAtOnceOrThroughDisabling := by
  intro a s hb online
  refine ⟨fun active busy => ?disabling, fun free => ?at_once, fun disabling => ?busy, fun off => ?not_waiting⟩
  case disabling => exact answered_of_station hb online (by simp only [active, busy, if_true])
  case at_once =>
    refine answered_of_station hb online ?_
    rw [← disableRing_eq]
    rcases free with ⟨active, idle⟩ | stalled | faulted
    · simp only [active, idle, Bool.false_eq_true, if_false]
    · simp only [stalled]
    · simp only [faulted]
  case busy => exact answered_of_station hb online (by simp only [disabling])
  case not_waiting => exact answered_of_station hb online (by simp only [off])

/-- What a consumed value within the bound makes of a ring, in one expression. -/
theorem Ring.consume_eq (g : Ring) (v : Half) : g.consume v =
    { g with
      consumed := v
      state := if g.state = .active ∨ g.state = .stalled then
          (if (g.produced - v).toNat = g.latchedSlots then .stalled else .active)
        else g.state } := by
  unfold Ring.consume
  cases hs : g.state <;> simp only [reduceCtorEq, or_false, or_true, if_true, if_false] <;> rfl

/-- Settles O39: a DISABLED ring, a value within the bound, a value beyond it. -/
theorem ringConsumedIsJudgedByTheBound : Obligations.RingConsumedIsJudgedByTheBound := by
  intro a w s v g bound hb hv hg hbound
  have value : w.setWidth 16 = v := by rw [hv, low_bits]
  have judged : g.consumedBound (s.delivering a) = bound := hbound.symm
  subst hg
  refine ⟨fun off => ?ignored, fun on within => ?accepted, fun on beyond => ?refused⟩
  case ignored => exact written_of_access hb (if_pos off)
  case accepted =>
    refine written_of_access hb ?_
    dsimp only
    rw [if_neg on, value, judged, if_pos within]
    simp only [Ring.consume_eq]
    rfl
  case refused =>
    refine written_of_access hb ?_
    dsimp only
    rw [if_neg on, value, judged, if_neg (Nat.not_le.mpr beyond), recordFault_eq]
    congr 2
    exact BitVec.eq_of_toNat_eq (by simp)

end Sys2Proof.Machine
end

section
/-! The Delivery Engine: the start of a delivery, its writes, and its faults (O40, O41, O42, O44). -/

namespace Sys2Proof.Machine

-- One proof at a time: many at once take more threads than the check allows.
set_option Elab.async false

/-! ### The choice of a delivery -/

/-- The class of a head with no message in a more urgent class. -/
theorem StationRec.urgentClass_of_head {r : StationRec} {c : ClassId} {d : DescId} {rest : List DescId}
    (urgent : ∀ c' < c, r.queue c' = []) (head : r.queue c = d :: rest) : r.urgentClass = some c := by
  have classes : allClasses = List.finRange 4 := rfl
  rw [StationRec.urgentClass, classes, List.find?_eq_some_iff_getElem]
  refine ⟨by simp [head], c.val, by simp, by simp, fun j hj => ?_⟩
  simpa using urgent ⟨j, by omega⟩ hj

theorem mem_allClasses : ∀ c : ClassId, c ∈ allClasses := by decide

/-- Eligibility decides R125's words. -/
theorem State.servable_iff (s : State) (a : StationId) : s.Servable a ↔ s.eligible a = true := by
  have some_class : (s.st a).urgentClass.isSome = true ↔ ∃ c, (s.st a).queue c ≠ [] := by
    simp only [StationRec.urgentClass, List.find?_isSome, Bool.not_eq_true', List.isEmpty_eq_false_iff]
    exact ⟨fun ⟨c, _, h⟩ => ⟨c, h⟩, fun ⟨c, h⟩ => ⟨c, mem_allClasses c, h⟩⟩
  rw [State.eligible_iff, some_class, State.Servable]

/-- The search goes through the stations p + 1 to p + 8, mod 8. -/
theorem searchOrder_val (p : StationId) (i : Nat) (h : i < (searchOrder p).length) :
    ((searchOrder p)[i]).val = (p.val + (i + 1)) % 8 := by
  have all : ∀ (p : StationId) (i : Fin 8), ((searchOrder p)[i.val]'i.isLt).val = (p.val + (i.val + 1)) % 8 := by decide
  exact all p ⟨i, h⟩

theorem State.nextDelivery_eq_none {s : State} (none_servable : ∀ a, ¬ s.Servable a) : s.nextDelivery = none := by
  have none_found : (searchOrder s.rrPointer).find? s.eligible = none :=
    List.find?_eq_none.mpr fun a _ eligible => none_servable a ((s.servable_iff a).mpr eligible)
  rw [State.nextDelivery, none_found]

/-- The delivery that comes next is that of the first eligible station behind the round-robin pointer (R126). -/
theorem State.nextDelivery_of_first {s : State} {k : Nat} {a : StationId} {c : ClassId} {d : DescId} {rest : List DescId}
    {m : Message} (low : 1 ≤ k) (high : k ≤ 8) (ha : a.val = (s.rrPointer.val + k) % 8) (servable : s.Servable a)
    (first : ∀ (j : Nat) (b : StationId), 1 ≤ j → j < k → b.val = (s.rrPointer.val + j) % 8 → ¬ s.Servable b)
    (urgent : ∀ c' < c, (s.st a).queue c' = []) (head : (s.st a).queue c = d :: rest) (hm : s.msg d = some m) :
    s.nextDelivery = some (s.deliveryFor a c d m) := by
  refine State.nextDelivery_eq_some.mpr ⟨a, ?_, State.formDelivery_eq_some.mpr
    ⟨c, d, rest, m, StationRec.urgentClass_of_head urgent head, head, hm, rfl⟩⟩
  have inside : k - 1 < (searchOrder s.rrPointer).length := by simp only [searchOrder, List.length]; omega
  refine List.find?_eq_some_iff_getElem.mpr ⟨(s.servable_iff a).mp servable, k - 1, inside, ?_, fun j hj => ?_⟩
  · rw [Fin.ext_iff, searchOrder_val, ha, Nat.sub_add_cancel low]
  · have away := first (j + 1) _ (by omega) (by omega) (searchOrder_val s.rrPointer j (by omega))
    rw [s.servable_iff] at away
    simpa using away

theorem startIfIdle_of_busy {s : State} (busy : s.engine ≠ .idle) : startIfIdle s = s := by
  unfold startIfIdle
  split
  · rename_i idle _
    exact absurd idle busy
  · rfl

theorem startIfIdle_of_none {s : State} (none_next : s.nextDelivery = none) : startIfIdle s = s := by
  simp [startIfIdle, none_next]

theorem startIfIdle_of_next {s : State} {d : Delivery} (idle : s.engine = .idle) (next : s.nextDelivery = some d) :
    startIfIdle s = { adoptDelivery d s with engine := .busWait d } := by
  simp [startIfIdle, idle, next]

/-- Settles O40: the search and the record it forms are those of `nextDelivery_of_first`. -/
theorem engineStartsTheFirstEligibleStation : Obligations.EngineStartsTheFirstEligibleStation := by
  intro s
  refine ⟨startIfIdle_of_busy, fun none_servable => startIfIdle_of_none (State.nextDelivery_eq_none none_servable),
    fun k a c d rest m idle low high ha servable first urgent head hm => ?_⟩
  rw [startIfIdle_of_next idle (State.nextDelivery_of_first low high ha servable first urgent head hm), adoptDelivery]
  have named : (s.deliveryFor a c d m).desc = d := rfl
  rw [named, setMessageState_of_msg hm]
  rfl

/-! ### Bus events -/

/-- Settles O41: every event by the state of the engine. -/
theorem busGrantAndRetry : Obligations.BusGrantAndRetry := by
  refine ⟨fun s => ⟨fun d waits noGap => ?grant, fun unsampled => ?no_grant, rfl, fun d c opened within => ?retry,
    fun free => ?no_cycle, fun idle => ?idle_pins, fun d waits => ?wait_pins, fun d c opened => ?transfer_pins⟩,
    rfl, rfl, rfl, rfl⟩
  case grant =>
    show execBusGrant s = _
    simp [execBusGrant, waits, noGap]
  case no_grant =>
    show execBusGrant s = _
    unfold execBusGrant
    split
    · rename_i d waits
      have gap : s.gap = true := unsampled.resolve_left fun none_waits => none_waits d waits
      simp [gap]
    · rfl
  case retry =>
    show execRespRetry s = _
    simp only [execRespRetry, opened]
    exact if_neg (by omega)
  case no_cycle =>
    cases engine : s.engine with
    | idle => simp [exec, execRespRetry, execRespComplete, execRespFault, execResponseLimitExpiry, expireResponse, engine]
    | busWait d =>
      simp [exec, execRespRetry, execRespComplete, execRespFault, execResponseLimitExpiry, expireResponse, engine]
    | transfer d c => simp [State.bown, engine] at free
  case idle_pins => simp [State.brq, State.bown, State.masterCycle, idle]
  case wait_pins => simp [State.brq, State.bown, State.masterCycle, waits]
  case transfer_pins => simp [State.brq, State.bown, State.masterCycle, opened, Cycle.pins]

/-- A COMPLETE answer is followed by the next write of the sequence. -/
theorem exec_respComplete_of_next {d : Delivery} {c : Cycle} {m : Message} {w : DeliveryWrite} {s : State}
    (opened : s.engine = .transfer d c) (hm : s.msg d.desc = some m) (next : nextWrite m.length d.next = some w) :
    exec .respComplete s = .next (issueWrite { d with next := w } s) := by
  show execRespComplete s = _
  simp [execRespComplete, opened, deliveryLength, hm, next]

/-- Settles O42: the sequence is `nextWrite`'s; a write carries the address and data of its clause. -/
theorem deliveryWritesInOrder : Obligations.DeliveryWritesInOrder := by
  refine ⟨fun d c m s opened hm => ?order, fun d m s addr data hm write => ?issued⟩
  case order =>
    have complete : ∀ w, nextWrite m.length d.next = some w →
        exec .respComplete s = .next (issueWrite { d with next := w } s) :=
      fun w => exec_respComplete_of_next opened hm
    refine ⟨fun next => complete _ ?_, fun next empty => complete _ ?_, fun next full => complete _ ?_,
      fun j next more => complete _ ?_, fun j next last => complete _ ?_⟩
    · simp [next, nextWrite]
    · simp [next, nextWrite, empty]
    · simp [next, nextWrite, Nat.ne_of_gt full]
    · simp [next, nextWrite, more]
    · simp [next, nextWrite, Nat.not_lt.mpr last]
  case issued =>
    have cycle : addr = writeAddr (s.st d.station).ring d ∧
        data = writeData (s.st d.station).ring d fun j => payloadWord m s.cellStore j := by
      rcases write with ⟨next, rfl, rfl⟩ | ⟨next, rfl, rfl⟩ | ⟨j, next, rfl, cell, below, holds, rfl⟩ | ⟨next, rfl, rfl⟩
      · simp [writeAddr, writeData, next, Config.slotBytes, Nat.mul_comm]
      · simp [writeAddr, writeData, next, Config.slotBytes, Nat.mul_comm]
      · simp [writeAddr, writeData, next, Config.slotBytes, Nat.mul_comm, payloadWord, payloadPlace, below,
          Config.cellWords, holds]
      · simp only [writeAddr, writeData, next, true_and]
        exact BitVec.eq_of_toNat_eq (by simp)
    obtain ⟨rfl, rfl⟩ := cycle
    simp only [issueWrite, hm]

/-- Settles O44: each cause faults the delivery, and `faultDelivery_eq` says what that is. -/
theorem deliveryFaults : Obligations.DeliveryFaults := by
  intro d c m s after opened hm given
  have fault : ∀ code, faultDelivery d code c.addr s = after code := fun code =>
    (faultDelivery_eq hm code c.addr).trans (given code).symm
  refine ⟨?answered, fun due => ?expired, fun running => ?not_due, fun beyond => ?exhausted⟩
  case answered =>
    show execRespFault s = _
    simp only [execRespFault, opened, fault]
  case expired =>
    show execResponseLimitExpiry s = _
    simp only [execResponseLimitExpiry, expireResponse, opened, if_pos due, fault]
  case not_due =>
    show execResponseLimitExpiry s = _
    simp only [execResponseLimitExpiry, expireResponse, opened, if_neg running]
  case exhausted =>
    show execRespRetry s = _
    simp only [execRespRetry, opened, if_pos beyond, fault]

end Sys2Proof.Machine
end

section
/-! RESET: the values it leaves and the laws they keep (O10, O60). -/

namespace Sys2Proof.Machine

-- One proof at a time: many at once take more threads than the check allows.
set_option Elab.async false

section
variable (v : StationId) (q : List Instr)

/-- The state that RESET with strap `v` leaves on the queue `q`. -/
def State.resetWith : State := { State.reset with supervisor := v, pending := q }

theorem exec_reset (s : State) : exec (.reset v) s = .next (State.resetWith v s.pending) := rfl

theorem State.resetWith_reads : (∀ a, (State.resetWith v q).st a = StationRec.reset) ∧
    (∀ c, (State.resetWith v q).chan c = Channel.reset) ∧
    (∀ l, (State.resetWith v q).lock l = { state := .free, waiters := [] }) ∧ ∀ d, (State.resetWith v q).msg d = none := by
  simp [State.resetWith, State.st, State.chan, State.lock, State.msg, State.reset]

theorem State.resetWith_lists : (State.resetWith v q).freeCells = List.finRange 1024 ∧
    (State.resetWith v q).freeDescs = List.finRange 256 := by
  simp only [State.resetWith, reset_freeCells, reset_freeDescs, and_self]

theorem State.reset_eq_resetWith : ∃ v q, State.reset = State.resetWith v q := by
  have replaced : ∀ s : State, ∃ v q, s = { s with supervisor := v, pending := q } := fun s => ⟨_, _, rfl⟩
  obtain ⟨v, q, same⟩ := replaced State.reset
  exact ⟨v, q, same⟩
end

/-- Settles O10: every table is one of equal entries, whose fields are read off. -/
theorem resetValues : Obligations.ResetValues := by
  intro v s
  obtain ⟨stations, channels, locks, messages⟩ := State.resetWith_reads v s.pending
  obtain ⟨cells, descs⟩ := State.resetWith_lists v s.pending
  refine ⟨_, exec_reset v s, rfl, fun a => ?_, fun c => by rw [channels]; rfl, locks, cells, descs, messages,
    rfl, rfl, rfl, rfl, rfl, rfl, rfl, rfl, rfl, rfl, rfl, rfl⟩
  rw [stations]
  simp [StationRec.reset, StationRec.queue, StationRec.limit, Ring.reset, Config.resetQueueLimit, Config.resetVectorBase]

/-- Settles O60: each law has been proved of every state that RESET leaves, which `State.reset` is one of. -/
theorem invariantsHoldAfterReset : Obligations.InvariantsHoldAfterReset := by
  intro s after
  obtain ⟨v, q, rfl⟩ : ∃ v q, s = State.resetWith v q := by
    rcases after with rfl | ⟨v, u, reset⟩
    · exact State.reset_eq_resetWith
    · exact ⟨v, u.pending, (Host.Outcome.next.inj reset).symm⟩
  refine ⟨serviceOrdered_keptByUpdates.onReset v q, ?absent, (reset_offlineIdle v q).stationsIdle, ?placed,
    listsWithinLimits_keptByUpdates.onReset v q, storeCanonical_keptByUpdates.onReset v q,
    storeConserved_keptByUpdates.onReset v q, roomHeadBlocked_keptByUpdates.onReset v q,
    countsAgree_keptByUpdates.onReset v q, waitersAgree_keptByUpdates.onReset v q, ringsSound_keptByUpdates.onReset v q,
    ?counters⟩
  case absent => exact (State.absentStationsHoldNothing_iff _).mpr (holdNothing_keptByUpdates.onReset v q)
  case placed => exact ((State.placed_view_iff _).mp (reset_placesRight v q)).2
  case counters =>
    exact (countersInRange_iff _).mpr ⟨engineInRange_keptByUpdates.onReset v q, roomTimersInRange_keptByUpdates.onReset v q,
      waitTimersInRange_keptByUpdates.onReset v q, clockInRange_keptByUpdates.onReset v q⟩

end Sys2Proof.Machine
end

section
/-! The window: which command an access is, the dispatch checks, faulting accesses, and the acknowledge (O5, O6, O7, O46,
O49). -/

namespace Sys2Proof.Machine

-- One proof at a time: many at once take more threads than the check allows.
set_option Elab.async false

/-! ### Word numbers -/

theorem apertureWordNumber_lt (w : ApertureWord) : apertureWordNumber w < 192 := by
  cases w <;> simp only [apertureWordNumber] <;> omega

theorem apertureWordAt_number (w : ApertureWord) : apertureWordAt (apertureWordNumber w) = some w := by
  cases w with
  | staging k =>
    have inside : 0x40 ≤ 0x40 + k.val ∧ 0x40 + k.val < 0x80 := by omega
    simp only [apertureWordNumber, apertureWordAt, dif_pos inside, Nat.add_sub_cancel_left]
  | payload i =>
    have above : ¬ (0x40 ≤ 0x80 + i.val ∧ 0x80 + i.val < 0x80) := by omega
    have inside : 0x80 ≤ 0x80 + i.val ∧ 0x80 + i.val < 0xC0 := by omega
    simp only [apertureWordNumber, apertureWordAt, dif_neg above, dif_pos inside, Nat.add_sub_cancel_left]
  | _ => rfl

theorem globalWordNumber_lt (g : GlobalWord) : globalWordNumber g < 256 := by
  cases g <;> simp only [globalWordNumber] <;> omega

theorem globalWordAt_number (g : GlobalWord) : globalWordAt (globalWordNumber g) = some g := by
  cases g with
  | channelRoute c =>
    have inside : 0x40 ≤ 0x40 + 2 * c.val ∧ 0x40 + 2 * c.val < 0xC0 := by omega
    have even : (0x40 + 2 * c.val) % 2 = 0 := by omega
    rw [globalWordNumber, globalWordAt, dif_pos inside, if_pos even, Option.some.injEq,
      GlobalWord.channelRoute.injEq, Fin.ext_iff]
    simp only
    omega
  | channelCount c =>
    have inside : 0x40 ≤ 0x41 + 2 * c.val ∧ 0x41 + 2 * c.val < 0xC0 := by omega
    have odd : ¬ (0x41 + 2 * c.val) % 2 = 0 := by omega
    rw [globalWordNumber, globalWordAt, dif_pos inside, if_neg odd, Option.some.injEq,
      GlobalWord.channelCount.injEq, Fin.ext_iff]
    simp only
    omega
  | lockRecord l =>
    have above : ¬ (0x40 ≤ 0xC0 + 2 * l.val ∧ 0xC0 + 2 * l.val < 0xC0) := by omega
    have inside : 0xC0 ≤ 0xC0 + 2 * l.val ∧ 0xC0 + 2 * l.val < 0x100 := by omega
    have even : (0xC0 + 2 * l.val) % 2 = 0 := by omega
    rw [globalWordNumber, globalWordAt, dif_neg above, dif_pos inside, if_pos even, Option.some.injEq,
      GlobalWord.lockRecord.injEq, Fin.ext_iff]
    simp only
    omega
  | lockWaiters l =>
    have above : ¬ (0x40 ≤ 0xC1 + 2 * l.val ∧ 0xC1 + 2 * l.val < 0xC0) := by omega
    have inside : 0xC0 ≤ 0xC1 + 2 * l.val ∧ 0xC1 + 2 * l.val < 0x100 := by omega
    have odd : ¬ (0xC1 + 2 * l.val) % 2 = 0 := by omega
    rw [globalWordNumber, globalWordAt, dif_neg above, dif_pos inside, if_neg odd, Option.some.injEq,
      GlobalWord.lockWaiters.injEq, Fin.ext_iff]
    simp only
    omega
  | _ => rfl

theorem apertureOf_of_div {off : Fin 8192} {a : StationId} (h : off.val / 512 = a.val) : apertureOf off = some a := by
  have inside : off.val < 4096 := by omega
  rw [apertureOf, dif_pos inside]
  exact congrArg some (Fin.ext h)

theorem apertureOf_of_global {off : Fin 8192} (h : 4096 ≤ off.val) : apertureOf off = none :=
  dif_neg (Nat.not_lt.mpr h)

/-- The window maps every word at its number. -/
theorem windowWordAt_number (t : WindowWord) : windowWordAt (Fin.ofNat 8192 (windowWordNumber t)) = some t := by
  cases t with
  | aperture a w =>
    have small := apertureWordNumber_lt w
    have number : (Fin.ofNat 8192 (windowWordNumber (.aperture a w))).val = 512 * a.val + apertureWordNumber w := by
      simp only [Fin.val_ofNat, windowWordNumber]; omega
    have own : apertureOf (Fin.ofNat 8192 (windowWordNumber (.aperture a w))) = some a := apertureOf_of_div (by omega)
    have place : (Fin.ofNat 8192 (windowWordNumber (.aperture a w))).val % 512 = apertureWordNumber w := by omega
    simp only [windowWordAt, own, place, apertureWordAt_number, Option.map_some]
  | global g =>
    have small := globalWordNumber_lt g
    have number : (Fin.ofNat 8192 (windowWordNumber (.global g))).val = 4096 + globalWordNumber g := by
      simp only [Fin.val_ofNat, windowWordNumber]; omega
    have page : (Fin.ofNat 8192 (windowWordNumber (.global g))).val < 5120 := by omega
    have place : (Fin.ofNat 8192 (windowWordNumber (.global g))).val - 4096 = globalWordNumber g := by omega
    have own : apertureOf (Fin.ofNat 8192 (windowWordNumber (.global g))) = none := apertureOf_of_global (by omega)
    simp only [windowWordAt, own, if_pos page, place, globalWordAt_number, Option.map_some]

/-! ### Decoding -/

theorem decodeAccess_writeTo (t : WindowWord) (w : Word) : decodeAccess (writeTo t w) = some (decodeWrite t w) := by
  simp only [decodeAccess, writeTo, windowWordAt_number, wholeWord, beq_self_eq_true, if_true]

/-- A word without a row of its own is written by REGISTER_WRITE. -/
theorem decodeWrite_of_plain {t : WindowWord} (plain : hasOwnRow t = false) (w : Word) :
    decodeWrite t w = .registerWrite t w := by
  unfold decodeWrite
  split <;> simp_all [hasOwnRow]


/-- The COMMAND word of every command decodes to it. -/
theorem decodeCommand_encode (i : Instr) : Laws.CommandWord.Statement i := by
  cases i with
  | attach a => exact Laws.CommandWord.attach a
  | retire a => exact Laws.CommandWord.retire a
  | retireStation a t => exact Laws.CommandWord.retireStation a t
  | post a ch len pass l => exact Laws.CommandWord.post a ch len pass l
  | cancelPost a => exact Laws.CommandWord.cancelPost a
  | take a c => exact Laws.CommandWord.take a c
  | takeAny a => exact Laws.CommandWord.takeAny a
  | release a => exact Laws.CommandWord.release a
  | acquire a l => exact Laws.CommandWord.acquire a l
  | tryLock a l => exact Laws.CommandWord.tryLock a l
  | releaseLock a l => exact Laws.CommandWord.releaseLock a l
  | cancelWait a => exact Laws.CommandWord.cancelWait a
  | popConfirm a => exact Laws.CommandWord.popConfirm a
  | setQlimit a c limit => exact Laws.CommandWord.setQlimit a c limit
  | enableRing a => exact Laws.CommandWord.enableRing a
  | disableRing a => exact Laws.CommandWord.disableRing a
  | resumeRing a => exact Laws.CommandWord.resumeRing a
  | openChannel a ch dest c hold confirm pass limit =>
    exact Laws.CommandWord.openChannel a ch dest c hold confirm pass limit
  | closeChannel a ch => exact Laws.CommandWord.closeChannel a ch
  | forceRelease a l => exact Laws.CommandWord.forceRelease a l
  | setTick a => exact Laws.CommandWord.setTick a
  | setEngine a response retry burst => exact Laws.CommandWord.setEngine a response retry burst
  | badCommand a code => exact Laws.CommandWord.badCommand a code
  | _ => rintro - a w ⟨⟩

/-- Settles O49: a register access decodes by the word number of its register, a COMMAND write by that of COMMAND and its
command word. -/
theorem accessesDecodeToTheirCommands : Obligations.AccessesDecodeToTheirCommands := by
  intro i x wf encoded
  unfold encodeAccess at encoded
  split at encoded
  case h_8 a =>
    obtain rfl := Option.some.inj encoded
    simp only [decodeAccess, writeTo, windowWordAt_number, wholeWord, beq_self_eq_true, if_true]
    rfl
  case h_13 t w =>
    obtain rfl := Option.some.inj encoded
    rw [decodeAccess_writeTo, decodeWrite_of_plain (by simpa [wellFormed] using wf)]
  case h_14 off be write =>
    obtain rfl := Option.some.inj encoded
    simp only [wellFormed, Bool.or_eq_true, Bool.not_eq_true', Option.isNone_iff_eq_none] at wf
    unfold decodeAccess
    split
    · rfl
    · rename_i t mapped
      simp [wf.resolve_right (by simp [mapped])]
  case h_15 =>
    obtain ⟨⟨a, w⟩, command, rfl⟩ := Option.map_eq_some_iff.mp encoded
    rw [decodeAccess_writeTo]
    exact congrArg some (decodeCommand_encode i wf a w command)
  all_goals
    obtain rfl := Option.some.inj encoded
    exact decodeAccess_writeTo _ _

/-! ### Accesses (O5, O7) -/

/-- Every COMMAND word is a command that is an access. -/
theorem encodeAccess_decodeCommand (a : StationId) (w : Word) : (encodeAccess (decodeCommand a w)).isSome = true := by
  unfold decodeCommand
  split <;> rfl

/-- What an access decodes to is an access. -/
theorem encodeAccess_of_decode {x : BusAccess} {c : Instr} (h : decodeAccess x = some c) :
    (encodeAccess c).isSome = true := by
  have write : ∀ t w, (encodeAccess (decodeWrite t w)).isSome = true := fun t w => by
    unfold decodeWrite
    split
    case h_1 a => exact encodeAccess_decodeCommand a w
    all_goals rfl
  unfold decodeAccess at h
  split at h
  · obtain rfl := Option.some.inj h
    rfl
  · split at h
    · split at h
      · obtain rfl := Option.some.inj h
        exact write _ _
      · split at h
        · obtain rfl := Option.some.inj h
          rfl
        · simp at h
    · obtain rfl := Option.some.inj h
      rfl

/-- A write access is without effect while the device owns the bus. -/
theorem unanswered_of_owned {f : State → State} {s : State} (owned : s.bown = true) :
    (.next (writeAccess f s) : Host.Outcome State Fault Refusal) = .next { s with answer := none } := by
  rw [writeAccess, if_pos owned, unanswered]

theorem exec_access_of_owned {i : Instr} {s : State} (owned : s.bown = true) (access : (encodeAccess i).isSome = true) :
    exec i s = .next { s with answer := none } := by
  cases i
  case ack a => exact congrArg Host.Outcome.next (if_pos owned)
  case partialOrUnmappedAccess off be write => exact congrArg Host.Outcome.next (if_pos owned)
  case reset | tick | roomWaitTimerExpiry | waitTimerExpiry | responseLimitExpiry | copyCompletion | busGrant | brqReassert
    | respComplete | respRetry | respFault => simp [encodeAccess, encodeCommand] at access
  all_goals exact unanswered_of_owned owned

theorem serveAccess_of_decode {x : BusAccess} {c : Instr} {s : State} (h : decodeAccess x = some c) :
    serveAccess x s = exec c s := by
  rw [serveAccess, h]

/-- A plain read has no row: it is answered with its word. -/
theorem serveAccess_of_read {x : BusAccess} {t : WindowWord} {s : State} (h : decodeAccess x = none)
    (mapped : windowWordAt x.off = some t) : serveAccess x s = .next (answerRead t s) := by
  rw [serveAccess, h, mapped]

/-- Settles O5: an access without a row is a plain read of a mapped word; any other is a command that is an access. -/
theorem accessesServedUnlessDeviceOwnsBus : Obligations.AccessesServedUnlessDeviceOwnsBus := by
  refine ⟨fun i s owned access => exec_access_of_owned owned access, fun x s => ⟨fun owned => ?unserved,
    fun c => serveAccess_of_decode, fun t mapped whole read other free => ?served⟩, fun s => ?codes⟩
  case unserved =>
    cases decoded : decodeAccess x with
    | some c => rw [serveAccess_of_decode decoded, exec_access_of_owned owned (encodeAccess_of_decode decoded)]
    | none =>
      cases mapped : windowWordAt x.off with
      | none => simp [decodeAccess, mapped] at decoded
      | some t => rw [serveAccess_of_read decoded mapped, answerRead, if_pos owned, unanswered]
  case served =>
    have plain : decodeAccess x = none := by
      simp only [decodeAccess, mapped, whole, read, wholeWord, beq_self_eq_true, if_true, Bool.false_eq_true, if_false]
    rw [serveAccess_of_read plain mapped, answerRead, if_neg (ne_true_of_eq_false free), answerComplete]
  case codes =>
    refine ⟨fun none_given => ?_, fun v complete => ?_, fun v fault => ?_⟩
    · rw [State.resp, none_given]
    · rw [State.resp, complete]; rfl
    · rw [State.resp, fault]; rfl

theorem exec_partialOrUnmappedAccess {off : Fin 8192} {be : BitVec 4} {write : Bool} {s : State} (free : s.bown = false) :
    exec (.partialOrUnmappedAccess off be write) s = .next (answerFault write (match apertureOf off with
      | some a => recordFault a .accessFault (BitVec.ofNat 32 (apertureOffset off)) s
      | none => s)) :=
  congrArg Host.Outcome.next (if_neg (ne_true_of_eq_false free))

/-- Settles O7: by whether the access falls in an aperture. -/
theorem partialOrUnmappedAccessFaults : Obligations.PartialOrUnmappedAccessFaults := by
  intro off be write s _ free
  refine ⟨fun a inside => ?_, fun outside => ?_⟩
  · rw [exec_partialOrUnmappedAccess free, apertureOf_of_div inside]
    dsimp only
    rw [recordFault_eq, answerFault, apertureOffset]
  · rw [exec_partialOrUnmappedAccess free, apertureOf_of_global outside, answerFault]

/-! ### The dispatch checks (O6) -/

/-- The dispatch check of the command with code `n` in aperture `a` (R164, checks 2 and 3). -/
def dispatchCheck (a : StationId) (n : Nat) : State → Option ResultCode :=
  if n = 1 then checkAttach a else if 0x20 ≤ n then checkSupervisor a else checkStation a

/-- A COMMAND word with a known code runs some body behind the dispatch check of that code. -/
theorem exec_decodeCommand {a : StationId} {w : Word} {n : Nat} (hn : w.toNat % 256 = n)
    (known : BitVec.ofNat 8 n ∈ commandCodes) (s : State) :
    ∃ body, exec (decodeCommand a w) s = .next (runCommand a (BitVec.ofNat 8 n) (dispatchCheck a n) body s) := by
  have small : n < 256 := hn ▸ Nat.mod_lt _ (by decide)
  have code : (BitVec.ofNat 8 n).toNat = n := by simp only [BitVec.toNat_ofNat]; omega
  have codes : n ∈ commandCodes.map BitVec.toNat := code ▸ List.mem_map_of_mem known
  simp only [commandCodes, List.map_cons, List.map_nil, List.mem_cons, List.not_mem_nil, or_false] at codes
  unfold decodeCommand
  rw [hn]
  rcases codes with rfl | rfl | rfl | rfl | rfl | rfl | rfl | rfl | rfl | rfl | rfl | rfl | rfl | rfl | rfl | rfl | rfl |
    rfl | rfl | rfl | rfl | rfl
  all_goals exact ⟨_, rfl⟩

/-- A code that names no command is BAD_COMMAND. -/
theorem decodeCommand_of_unknown {a : StationId} {w : Word} {n : Nat} (hn : w.toNat % 256 = n)
    (unknown : BitVec.ofNat 8 n ∉ commandCodes) : decodeCommand a w = .badCommand a (BitVec.ofNat 8 n) := by
  unfold decodeCommand
  rw [hn]
  split
  case h_23 => rfl
  all_goals exact absurd (by decide) unknown

theorem checkStation_away {a : StationId} {s : State} (away : (s.st a).state ≠ .online) :
    checkStation a s = some .notOnline := if_neg away

/-- Settles O6: each clause is what the dispatch check of the code answers. -/
theorem dispatchChecksRefuseInOrder : Obligations.DispatchChecksRefuseInOrder := by
  intro a w s free n hn
  have refused : ∀ {code}, BitVec.ofNat 8 n ∈ commandCodes → dispatchCheck a n s = some code →
      exec (decodeCommand a w) s = .next (answered a (BitVec.ofNat 8 n) code s) := fun known check => by
    obtain ⟨body, runs⟩ := exec_decodeCommand (a := a) hn known s
    rw [runs, runCommand_refused free check]
  refine ⟨fun unknown => ⟨decodeCommand_of_unknown hn unknown, ?bad⟩, fun known high stranger => refused known ?supervisor,
    fun known allowed not_attach away => refused known ?station, fun attach leaving => refused ?known ?attach⟩
  case bad => exact congrArg Host.Outcome.next (runCommand_refused free rfl)
  case supervisor => rw [dispatchCheck, if_neg (by omega), if_pos high, checkSupervisor, if_pos stranger]
  case station =>
    rw [dispatchCheck, if_neg not_attach]
    split
    · rename_i high
      rw [checkSupervisor, if_neg (not_not.mpr (allowed high)), checkStation_away away]
    · exact checkStation_away away
  case known => subst attach; decide
  case attach => rw [dispatchCheck, if_pos attach, checkAttach, if_pos leaving]

/-! ### The acknowledge (O46) -/

theorem StationRec.ntf_iff (r : StationRec) : r.ntf = true ↔ ∃ n, r.Ready n := by
  simp only [StationRec.ntf, List.any_eq_true, ready_iff]
  exact ⟨fun ⟨n, _, h⟩ => ⟨n, h⟩, fun ⟨n, h⟩ => ⟨n, mem_allSources n, h⟩⟩

theorem StationRec.ackWord_eq (r : StationRec) (n : SourceId) : r.ackWord n =
    BitVec.ofNat 32 (2 ^ 31 + r.sourceLevel n * 2 ^ 12 + n.val * 2 ^ 8 + (r.vectorBase.toNat / 8 * 8 + n.val)) := by
  rw [StationRec.ackWord, pack, sourceLevel_eq]
  simp only [placed, StationRec.vector]
  exact congrArg (BitVec.ofNat 32) (by omega)

/-- Settles O46: the ready source that no other exceeds is the one the search chooses. -/
theorem acknowledgeChoosesTheMostUrgentSource : Obligations.AcknowledgeChoosesTheMostUrgentSource := by
  intro a s
  refine ⟨StationRec.ntf_iff _, fun free => ⟨fun none_ready => ?none_chosen, fun n ready most => ?chosen⟩⟩
  case none_chosen =>
    have none_chosen : (s.st a).chosenSource = none := StationRec.chosenSource_eq_none _ fun n => by
      simpa [ready_iff] using none_ready n
    rw [exec_ack, execAck, if_neg (ne_true_of_eq_false free), none_chosen]
    rfl
  case chosen =>
    have chosen : (s.st a).chosenSource = some n :=
      StationRec.chosenSource_eq_some ((ready_iff _ n).mp ready) fun k eligible => by
        simpa [sourceLevel_eq] using most k ((ready_iff _ k).mpr eligible)
    rw [exec_ack_of_chosen free chosen, StationRec.ackWord_eq]
    simp only [sourceLevel_eq]
    rfl

end Sys2Proof.Machine
end

section
/-! POST, room waits and the examination (O16, O17, O18, O19, O24). -/

namespace Sys2Proof.Machine

-- One proof at a time: many at once take more threads than the check allows.
set_option Elab.async false

section
variable {a : StationId} {ch : ChannelId} {len : Fin 128} {pass : Bool} {l : LockId} {s : State}

/-- All that the acceptance of a post does (R45). -/
theorem acceptPost_eq (a : StationId) (p : Post) (s : State) : acceptPost a p s =
    { s with
      stations := put s.stations a { s.st a with
        seqCounter := (s.st a).seqCounter + 1, sendResult := { outcome := .none, sequence := p.sequence } }
      channels := put s.channels p.channel { s.chan p.channel with count := (s.chan p.channel).count + 1 }
      locks := match p.passLock with
        | some l => put s.locks l { state := .pledged a, waiters := (s.lock l).waiters }
        | none => s.locks } := by
  unfold acceptPost
  cases p.passLock <;> rfl

/-- The lock of the post record, where the table of locks is read. -/
theorem postRecord_locks (a : StationId) (ch : ChannelId) (len : Fin 128) (pass : Bool) (l : LockId) (s : State) :
    (match (postRecord a ch len pass l s).passLock with
      | some l => put s.locks l { state := .pledged a, waiters := (s.lock l).waiters }
      | none => s.locks) =
      if pass then put s.locks l { state := .pledged a, waiters := (s.lock l).waiters } else s.locks := by
  cases pass <;> rfl

/-- A POST of an ONLINE station is judged by `judgePost`. -/
theorem exec_post {t : State} {code : ResultCode} (free : s.bown = false) (online : (s.st a).state = .online)
    (judged : judgePost a ch len pass l s = (t, code)) :
    exec (.post a ch len pass l) s = .next (answered a 0x03 code t) :=
  answered_of_station free online judged

theorem judgePost_of_passes (passes : s.PostPasses a ch len pass l) : judgePost a ch len pass l s =
    if s.roomQueue = [] ∧ s.fits (cellsFor len.val) = true then
      (allocate a (postRecord a ch len pass l s) (acceptPost a (postRecord a ch len pass l s) s), .ok)
    else if (s.chan ch).hold then
      (joinRoomQueue a (postRecord a ch len pass l s) (acceptPost a (postRecord a ch len pass l s) s), .pending)
    else (s, .noRoom) := by
  rw [judgePost, checkPost_of_passes passes]
  rfl
end

/-- Settles O16: the room request is granted, and `acceptPost_eq` and `allocate_eq` say what acceptance and grant do. -/
theorem postIsGivenRoomAtOnce : Obligations.PostIsGivenRoomAtOnce := by
  intro a ch len pass l s d rest free online passes empty descs cells
  have fits : s.fits (cellsFor len.val) = true := (s.fits_iff _).mpr ⟨by simp [descs], cells⟩
  have descs' : (acceptPost a (postRecord a ch len pass l s) s).freeDescs = d :: rest := by simpa using descs
  refine exec_post free online ?_
  rw [judgePost_of_passes passes, if_pos ⟨empty, fits⟩, allocate_eq descs', acceptPost_eq, postRecord_locks]
  simp only [State.st, entry_put_same, put_put]
  rfl

/-- Settles O17: the room request is not granted, and HOLD decides between the wait and the refusal. -/
theorem postThatFindsNoRoom : Obligations.PostThatFindsNoRoom := by
  intro a ch len pass l s free online passes without
  have none_now : ¬ (s.roomQueue = [] ∧ s.fits (cellsFor len.val) = true) := by
    rw [s.fits_iff]
    rintro ⟨empty, descs, cells⟩
    rcases without with waiting | no_desc | no_cell
    · exact waiting empty
    · simp [no_desc] at descs
    · exact absurd cells (Nat.not_le.mpr no_cell)
  refine ⟨fun hold => exec_post free online ?_, fun no_hold => exec_post free online ?_⟩
  · rw [judgePost_of_passes passes, if_neg none_now, if_pos hold, joinRoomQueue, acceptPost_eq, postRecord_locks]
    simp only [State.modSt, State.st, entry_put_same, put_put]
    rfl
  · rw [judgePost_of_passes passes, if_neg none_now, if_neg (by simp [no_hold])]

/-- The lock check refuses by whether the station has pledged the lock. -/
theorem checkPassedLock_of_not_held {a : StationId} {l : LockId} {s : State} (not_held : (s.lock l).state ≠ .held a) :
    checkPassedLock a l s = some (if (s.lock l).state = .pledged a then .lockPledged else .lockNotOwned) := by
  unfold checkPassedLock
  cases state : (s.lock l).state with
  | held o =>
    have other : o ≠ a := fun same => not_held (by rw [state, same])
    simp [other]
  | pledged o => by_cases own : o = a <;> simp [own]
  | free => simp
  | carried d => simp

/-- A chain of checks that refuses does so with the first that fails. -/
theorem refused_or_next {c : Prop} [Decidable c] {first rest : ResultCode} {next : Option ResultCode}
    (passed : ¬ c → next = some rest) : (if c then some first else next) = some (if c then first else rest) := by
  by_cases fails : c
  · rw [if_pos fails, if_pos fails]
  · rw [if_neg fails, if_neg fails, passed fails]

/-- Settles O18: check by check; a POST that fails none of those for every POST passes a lock, and fails a lock check. -/
theorem postRefusedByItsFirstFailingCheck : Obligations.PostRefusedByItsFirstFailingCheck := by
  rintro a ch len pass l s free online _ rfl fails
  refine exec_post free online ?_
  have refused : checkPost a ch len pass l s = some _ := refused_or_next fun idle => refused_or_next fun short =>
    refused_or_next fun opened => refused_or_next fun permitted => refused_or_next fun dest => refused_or_next fun below => by
    have general : (pass = true → (s.chan ch).pass = true ∧ (s.lock l).state = .held a) →
        s.PostPasses a ch len pass l := fun lock =>
      ⟨not_not.mp idle, Nat.le_of_not_lt short, by cases state : (s.chan ch).state <;> simp_all, by simpa using permitted,
        not_not.mp dest, Nat.lt_of_not_le below, lock⟩
    have passes : pass = true := by
      by_contra no_pass
      exact fails (general fun yes => absurd yes no_pass)
    rw [if_neg (by simp [passes])]
    refine refused_or_next fun allowed => checkPassedLock_of_not_held fun held => fails (general fun _ => ⟨?_, held⟩)
    simpa using allowed
  rw [judgePost, refused]
  rfl

/-! ### Room waits -/

/-- Settles O19: each end of a room wait removes the station's one entry, and `removeWaiting_station` says what follows. -/
theorem roomWaitEndsWithoutGrant : Obligations.RoomWaitEndsWithoutGrant := by
  refine ⟨fun a p pre post e s ended waits queue own others given => ?ends, fun a s => ⟨fun not_due => ?not_due,
    fun free online => ⟨fun p d copies => ?copying, fun idle => ?idle⟩⟩⟩
  case ends =>
    have removed : ∀ o sent, removeWaiting (fun e => e.station == a) o sent s =
        if pre = [] then examine (ended o sent) else ended o sent := fun o sent => by
      have waits' : (({ s with roomQueue := pre ++ post } : State).st a).send = .awaitRoom p := waits
      rw [removeWaiting_station queue own others, endRoomWait_eq waits', given]
      rfl
    refine ⟨fun free online => answered_of_station free online ?_, fun due => congrArg Host.Outcome.next ?_⟩
    · rw [waits]
      exact congrArg (·, ResultCode.ok) (removed _ _)
    · have expired : roomTimerDue a s = true := (roomTimerDue_iff a s).mpr ⟨e, by simp [queue], own, due⟩
      rw [expireRoomWait, if_pos expired, removed]
  case not_due =>
    have waits_on : ¬ roomTimerDue a s = true := fun due => by
      obtain ⟨e, mem, own, timer⟩ := (roomTimerDue_iff a s).mp due
      exact not_due e mem own timer
    exact congrArg Host.Outcome.next (if_neg waits_on)
  case copying => exact answered_of_station free online (by rw [copies])
  case idle => exact answered_of_station free online (by rw [idle])

/-- Settles O24: by whether the list is empty, the head blocked, or the head granted. -/
theorem roomQueueExamination : Obligations.RoomQueueExamination := by
  intro s
  refine ⟨fun empty => ?_, fun e rest queue blocked => ?_, fun e rest p d ds queue descs cells waits need => ?_⟩
  · rw [examine, empty, examineAmong, ← empty]
  · have no_fit : ¬ s.fits e.cellsNeeded = true := fun fits => by
      obtain ⟨desc, cells⟩ := (s.fits_iff _).mp fits
      rcases blocked with none_free | few
      · simp [none_free] at desc
      · omega
    rw [examine, queue, examineAmong, if_neg no_fit, ← queue]
  · have fits : s.fits e.cellsNeeded = true := (s.fits_iff _).mpr ⟨by simp [descs], cells⟩
    have descs' : ({ s with roomQueue := rest } : State).freeDescs = d :: ds := descs
    have waits' : (({ s with roomQueue := rest } : State).st e.station).send = .awaitRoom p := waits
    rw [examine, queue, examineAmong_cons fits, grant_of_awaitRoom waits', allocate_eq descs', need]
    rfl

end Sys2Proof.Machine
end

section
/-! The end of a message, TAKE and RELEASE, and the completion of a copy (O15, O21, O22, O23, O26, O27, O28). -/

namespace Sys2Proof.Machine

-- One proof at a time: many at once take more threads than the check allows.
set_option Elab.async false

/-! ### The passing of a lock and the end of a message (O28) -/

section
variable {l : LockId} {r : StationId} {s : State}

theorem passLock_of_waiting (waits : (s.st r).wait.map (·.lock) = some l) : passLock l r s =
    (s.setLock l { state := .held r, waiters := (s.lock l).waiters.erase r }).modSt r fun x =>
      StationRec.raised 4 { x with wait := none, lastWait := .granted } := by
  rw [passLock, if_pos waits, setSource_eq, endWait, State.modSt_modSt]
  rfl

theorem passLock_of_not_waiting (away : (s.st r).wait.map (·.lock) ≠ some l) :
    passLock l r s = s.setLock l { state := .held r, waiters := (s.lock l).waiters } := if_neg away
end

/-- What is freed is read from the state before, where the tables are still the same. -/
theorem State.freed_eq {s u : State} (channels : u.channels = s.channels) (descs : u.freeDescs = s.freeDescs)
    (cells : u.freeCells = s.freeCells) (messages : u.messages = s.messages) (d : DescId) (m : Message) : u.freed d m =
      { u with
        channels := put s.channels m.channel { s.chan m.channel with count := (s.chan m.channel).count - 1 }
        freeDescs := s.freeDescs ++ [d]
        freeCells := s.freeCells ++ m.cells
        messages := put s.messages d none } := by
  rw [State.freed, releaseCount, State.modChan, State.chan, channels, descs, cells, messages]
  rfl

section
variable {o : EndOutcome} {m : Message} {s : State}

theorem confirmEnd_of_no (no : m.confirm = false ∨ (s.st m.source).state ≠ .online) : confirmEnd o m s = s := by
  refine if_neg fun yes => ?_
  obtain ⟨confirm, online⟩ := Bool.and_eq_true_iff.mp yes
  rcases no with no | away
  · simp [no] at confirm
  · exact away (of_decide_eq_true online)

theorem confirmEnd_of_yes (yes : m.confirm = true) (online : (s.st m.source).state = .online) : confirmEnd o m s =
    offerConfirmation m.source { channel := m.channel, sequence := m.sequence, outcome := o } s :=
  if_pos (by simp [yes, online])
end

/-- Settles O28: the passing of the lock, the four steps of the end, and the offer by the room in the list. -/
theorem messageEndsInItsFourSteps : Obligations.MessageEndsInItsFourSteps := by
  refine ⟨fun l r s => ⟨passLock_of_waiting, passLock_of_not_waiting⟩, ?steps, fun o m s => ⟨confirmEnd_of_no,
    fun yes online room => ?offered, fun yes online full => ?dropped⟩⟩
  case steps =>
    rintro o d m s v u hm hv rfl
    obtain rfl : v = disposeLock o m s := hv
    rw [endMessage_of_msg hm, State.freed_eq (s := s) (by simp) (by simp) (by simp) (by simp)]
  case offered =>
    have room' : (s.st m.source).confirms.length < Config.confirmCapacity := room
    rw [confirmEnd_of_yes yes online, offerConfirmation, if_pos room', setSource_eq, State.modSt_modSt]
    rfl
  case dropped =>
    have full' : ¬ (s.st m.source).confirms.length < Config.confirmCapacity := Nat.not_lt.mpr full
    rw [confirmEnd_of_yes yes online, offerConfirmation, if_neg full', recordFault_eq, State.modSt_modSt]

/-! ### TAKE and RELEASE (O26, O27) -/

section
variable {a : StationId} {c : ClassId} {d : DescId} {rest : List DescId} {m : Message} {s : State}

/-- All that the taking of a head does, with its lock passed (R68, R109). -/
theorem takeHead_eq (head : (s.st a).queue c = d :: rest) (hm : s.msg d = some m) : takeHead a c d s =
    { s with
      messages := put s.messages d (some { m with state := .reading, carriedLock := none })
      locks := match m.carriedLock with
        | none => s.locks
        | some l => put s.locks l
            { state := .held a
              waiters := if (s.st a).wait.map (·.lock) = some l then (s.lock l).waiters.erase a
                         else (s.lock l).waiters }
      stations := put s.stations a
        (let r := { (s.st a).setQueue c rest with
            readSlot := some { desc := d, header0 := headerWord0 m, header1 := headerWord1 m } }
         if m.carriedLock ≠ none ∧ (s.st a).wait.map (·.lock) = m.carriedLock then
           StationRec.raised 4 { r with wait := none, lastWait := .granted }
         else r) } := by
  rw [takeHead, hm]
  dsimp only [State.modSt]
  rw [head, List.tail_cons]
  cases m.carriedLock with
  | none => rfl
  | some l =>
    rw [passCarried]
    by_cases waits : (s.st a).wait.map (·.lock) = some l
    · rw [passLock_of_waiting (by simpa [State.st, StationRec.setQueue] using waits), if_pos ⟨Option.some_ne_none l, waits⟩]
      simp only [if_pos waits]
      simp only [State.modSt, State.setMsg, State.setLock, State.st, entry_put_same, put_put]
      rfl
    · rw [passLock_of_not_waiting (by simpa [State.st, StationRec.setQueue] using waits), if_neg (fun both => waits both.2)]
      simp only [if_neg waits]
      rfl

theorem takeFrom_of_head (head : (s.st a).queue c = d :: rest) : takeFrom a c s = (takeHead a c d s, .ok) := by
  rw [takeFrom, head]
end

/-- Settles O26: the two takes by their check, and by the class they take from. -/
theorem takeAndTakeAny : Obligations.TakeAndTakeAny := by
  intro a c s free online
  have refuse : ∀ code, checkTake a s = some code → exec (.take a c) s = .next (answered a 0x05 code s) ∧
      exec (.takeAny a) s = .next (answered a 0x06 code s) := fun code check =>
    ⟨answered_of_station free online (by rw [check]), answered_of_station free online (by rw [check])⟩
  refine ⟨fun ring => refuse _ (if_pos ring), fun ring holds => refuse _ ?holding, fun ring empty => ?taken⟩
  case holding => rw [checkTake, if_neg (not_not.mpr ring), if_pos holds]
  case taken =>
    have passes : checkTake a s = none := by
      rw [checkTake, if_neg (not_not.mpr ring), if_neg (by simp [empty])]
    refine ⟨fun none_queued => ?_, fun none_held => ?_, fun d rest m u head hm given => ⟨?_, fun urgent => ?_⟩⟩
    · exact answered_of_station free online (by rw [passes]; dsimp only; rw [takeFrom, none_queued])
    · have no_class : (s.st a).urgentClass = none := by simp [StationRec.urgentClass, none_held]
      exact answered_of_station free online (by rw [passes]; dsimp only; rw [no_class])
    · refine answered_of_station free online ?_
      rw [passes, given]
      exact (takeFrom_of_head head).trans (congrArg (·, _) (takeHead_eq head hm))
    · refine answered_of_station free online ?_
      rw [passes, given, StationRec.urgentClass_of_head urgent head]
      exact (takeFrom_of_head head).trans (congrArg (·, _) (takeHead_eq head hm))

/-- Settles O27: the message of the slot ends RELEASED, which leaves its lock. -/
theorem releaseEndsTheMessageRead : Obligations.ReleaseEndsTheMessageRead := by
  refine fun a s free online => ⟨fun empty => ?_, ?_⟩
  · exact answered_of_station free online (by rw [empty])
  · rintro slot m u holds hm no_lock rfl
    refine answered_of_station free online ?_
    have keeps : ∀ t, disposeLock .released m t = t := fun t => by simp [disposeLock]
    have hm' : (s.modSt a fun r => { r with readSlot := none }).msg slot.desc = some m := hm
    rw [holds]
    dsimp only
    rw [endMessage_of_msg hm', keeps, State.freed_eq (s := s) (by simp) (by simp) (by simp) (by simp)]

end Sys2Proof.Machine
end

section
/-! The completion of a copy: the words in the cells, and the enqueue attempt (O21, O22, O23). -/

namespace Sys2Proof.Machine

-- One proof at a time: many at once take more threads than the check allows.
set_option Elab.async false

/-! ### The enqueue attempt (O21, O23) -/

section
variable {a : StationId} {p : Post} {d : DescId} {m : Message} {s : State}

/-- The state whose cells hold the staged words of station `a` for message `m` (R50). -/
def State.copied (s : State) (a : StationId) (m : Message) : State :=
  { s with cellStore := copyPayload m.cells m.length (s.st a).staging s.cellStore }

theorem exec_copyCompletion (copies : (s.st a).send = .copying p d) (hm : s.msg d = some m) :
    exec (.copyCompletion a) s = .next (quiesce a (startIfIdle (attemptEnqueue a p d m (s.copied a m)))) := by
  show execCopyCompletion a s = _
  simp only [execCopyCompletion, copies, hm, State.copied]

theorem exec_copyCompletion_of_not_copying (still : (s.st a).send.isCopying = false) :
    exec (.copyCompletion a) s = .next s := by
  show execCopyCompletion a s = _
  unfold execCopyCompletion
  split
  · rename_i p d copies
    simp [copies, SendState.isCopying] at still
  · rfl

/-- A sender that is not QUIESCING is not taken to OFFLINE by the completion of its copy. -/
theorem exec_copyCompletion_of_staying (copies : (s.st a).send = .copying p d) (hm : s.msg d = some m)
    (stays : (s.st a).state ≠ .quiescing) :
    exec (.copyCompletion a) s = .next (startIfIdle (attemptEnqueue a p d m (s.copied a m))) := by
  have stays' : ((startIfIdle (attemptEnqueue a p d m (s.copied a m))).st a).state ≠ .quiescing := by
    simpa [State.copied] using stays
  rw [exec_copyCompletion copies hm, quiesce_of_not_quiescing stays']

theorem lateCheck_copied (a : StationId) (m n : Message) (s : State) : lateCheck n (s.copied a m) = lateCheck n s := rfl

/-- The end of a post, with SENT. -/
theorem setSource_endPost (a : StationId) (p : Post) (o : SendOutcome) (s : State) :
    setSource a srcSent (endPost a p o s) = s.modSt a fun r =>
      StationRec.raised 5 { r with send := .idle, sendResult := { outcome := o, sequence := p.sequence } } := by
  rw [setSource_eq, endPost, State.modSt_modSt]
  rfl

theorem setLockState_eq (l : Option LockId) (st : LockState) (s : State) : setLockState l st s =
    { s with locks := match l with
      | some l => put s.locks l { state := st, waiters := (s.lock l).waiters }
      | none => s.locks } := by
  cases l <;> rfl

/-- All that an enqueue does (R62, R63). -/
theorem enqueue_eq (d : DescId) (m : Message) (s : State) : enqueue d m s =
    ({ s with messages := put s.messages d (some { m with state := .queued }) } : State).modSt m.dest fun r =>
      let q := r.setQueue m.cls (r.queue m.cls ++ [d])
      if r.ring.state = .disabled then q.raised (srcArrive m.cls) else q := by
  unfold enqueue
  by_cases window : (s.st m.dest).ring.state = .disabled
  · have window' : (entry s.stations m.dest).ring.state = .disabled := window
    rw [if_pos window, setSource_eq]
    simp only [State.modSt, State.setMsg, State.st, entry_put_same, put_put, window', if_true]
  · have window' : ¬ (entry s.stations m.dest).ring.state = .disabled := window
    rw [if_neg window]
    simp only [State.modSt, State.setMsg, State.st, window', if_false]

end

/-- Settles O21: both late checks pass, and `enqueue_eq` says what the enqueue does. -/
theorem copyCompletionEnqueues : Obligations.CopyCompletionEnqueues := by
  refine ⟨fun a p d m s copies hm stays online room => ?_, fun a s => exec_copyCompletion_of_not_copying⟩
  have late : lateCheck m (s.copied a m) = none := by
    rw [lateCheck_copied, lateCheck, if_neg (not_not.mpr online), if_neg (Nat.not_le.mpr room)]
  rw [exec_copyCompletion_of_staying copies hm stays, attemptEnqueue, late]
  dsimp only
  rw [setSource_endPost, setLockState_eq, enqueue_eq]
  rfl

/-- Settles O23: by the late check that fails. -/
theorem copyCompletionFailsItsLateCheck : Obligations.CopyCompletionFailsItsLateCheck := by
  intro a p d m s failure copies hm stays fails
  have late : lateCheck m (s.copied a m) = some failure := by
    rcases fails with ⟨away, rfl⟩ | ⟨online, full, rfl⟩
    · exact if_pos away
    · rw [lateCheck_copied, lateCheck, if_neg (not_not.mpr online), if_pos full]
  have hm' : (s.copied a m).msg d = some m := hm
  rw [exec_copyCompletion_of_staying copies hm stays, attemptEnqueue, late]
  dsimp only
  rw [setSource_endPost, endFailedEnqueue_of_msg hm', State.freed_eq (s := s) (by simp [State.copied])
    (by simp [State.copied]) (by simp [State.copied]) (by simp [State.copied]), setLockState_eq]
  rfl

/-! ### The words of the copy (O22) -/

/-- Staged word `j`, or 0 from the length on (R5, R50). -/
def stagedWord (length : Nat) (staging : Vector Word 64) (j : Nat) : Word :=
  if j < length then staging.toList.getD j 0 else 0

section
variable {cells : List CellId} {length : Nat} {staging : Vector Word 64} {k : Nat}

theorem read_copyWord {store : CellStore} (wf : store.wf = true) (j : Nat) :
    CellStore.read (copyWord cells length staging store j) k =
      if payloadPlace cells j = some k then stagedWord length staging j else CellStore.read store k := by
  unfold copyWord
  cases payloadPlace cells j with
  | none => simp
  | some i => simp [CellStore.read_write _ _ _ wf, stagedWord, eq_comm]

/-- A word that none of these staged words goes to reads as before. -/
theorem read_copyWords_other {js : List Nat} {store : CellStore} (wf : store.wf = true)
    (other : ∀ j ∈ js, payloadPlace cells j ≠ some k) :
    CellStore.read (js.foldl (copyWord cells length staging) store) k = CellStore.read store k := by
  induction js generalizing store with
  | nil => rfl
  | cons j js ih =>
    rw [List.foldl_cons, ih (copyWord_keeps_wf cells length staging j wf) fun i hi => other i (List.mem_cons_of_mem _ hi),
      read_copyWord wf, if_neg (other j List.mem_cons_self)]

/-- A word that just one of these staged words goes to reads as that one. -/
theorem read_copyWords_own {js : List Nat} {j : Nat} {store : CellStore} (wf : store.wf = true) (mem : j ∈ js)
    (nodup : js.Nodup) (place : payloadPlace cells j = some k)
    (alone : ∀ i ∈ js, payloadPlace cells i = some k → i = j) :
    CellStore.read (js.foldl (copyWord cells length staging) store) k = stagedWord length staging j := by
  induction js generalizing store with
  | nil => simp at mem
  | cons i js ih =>
    have wf' := copyWord_keeps_wf cells length staging i wf
    obtain ⟨fresh, nodup'⟩ := List.nodup_cons.mp nodup
    rw [List.foldl_cons]
    rcases List.mem_cons.mp mem with rfl | later
    · rw [read_copyWords_other wf' fun i hi same => fresh (alone i (List.mem_cons_of_mem _ hi) same ▸ hi),
        read_copyWord wf, if_pos place]
    · exact ih wf' later nodup' fun i hi => alone i (List.mem_cons_of_mem _ hi)

theorem payloadPlace_eq_some {j : Nat} :
    payloadPlace cells j = some k ↔ ∃ c, cells[j / 8]? = some c ∧ 8 * c.val + j % 8 = k := by
  simp [payloadPlace, Config.cellWords]

/-- With distinct cells no two payload words lie in one place. -/
theorem payloadPlace_injective (distinct : cells.Nodup) {i j : Nat} (hi : payloadPlace cells i = some k)
    (hj : payloadPlace cells j = some k) : i = j := by
  obtain ⟨c, cell_i, at_i⟩ := payloadPlace_eq_some.mp hi
  obtain ⟨e, cell_j, at_j⟩ := payloadPlace_eq_some.mp hj
  have same : c = e := Fin.ext (by omega)
  obtain ⟨inside, -⟩ := List.getElem?_eq_some_iff.mp cell_i
  have cell : i / 8 = j / 8 := (List.getElem?_inj inside distinct).mp (by rw [cell_i, cell_j, same])
  omega
end

theorem stagedWord_of_fin (length : Nat) (staging : Vector Word 64) (j : Fin 64) :
    stagedWord length staging j.val = if j.val < length then entry staging j else 0 := by
  have word : staging.toList.getD j.val 0 = entry staging j := by simp [entry]
  rw [stagedWord, word]

theorem attemptEnqueue_cellStore (a : StationId) (p : Post) (d : DescId) (m : Message) (s : State) :
    (quiesce a (startIfIdle (attemptEnqueue a p d m s))).cellStore = s.cellStore := by simp

/-- Settles O22: after the copy the cell store is untouched, and in it every word is written by at most one staged word. -/
theorem copyWritesStagedWords : Obligations.CopyWritesStagedWords := by
  intro a p d m s copies hm distinct short count wf
  refine ⟨_, exec_copyCompletion copies hm, fun j c cell => ?_, fun k outside => ?_, ?_⟩
  · rw [attemptEnqueue_cellStore, ← stagedWord_of_fin]
    have place : payloadPlace m.cells j.val = some (8 * c.val + j.val % 8) := payloadPlace_eq_some.mpr ⟨c, cell, rfl⟩
    obtain ⟨inside, -⟩ := List.getElem?_eq_some_iff.mp cell
    have mem : j.val ∈ List.range (Config.cellWords * m.cells.length) := by
      rw [List.mem_range, Config.cellWords]; omega
    exact read_copyWords_own wf mem List.nodup_range place fun i _ same => payloadPlace_injective distinct same place
  · rw [attemptEnqueue_cellStore]
    refine read_copyWords_other wf fun j _ same => ?_
    obtain ⟨c, cell, rfl⟩ := payloadPlace_eq_some.mp same
    exact outside c (List.mem_of_getElem? cell) (by omega)
  · rw [attemptEnqueue_cellStore]
    exact copyPayload_keeps_wf m.cells m.length (s.st a).staging wf

end Sys2Proof.Machine
end

section
/-! CLOSE_CHANNEL and the posts whose waits it ends, and RETIRE_STATION (O15, O36). -/

namespace Sys2Proof.Machine

-- One proof at a time: many at once take more threads than the check allows.
set_option Elab.async false

/-- Settles O15: both commands enter QUIESCING and write RESULT of their issuer alone. -/
theorem retireStationActsAsRetire : Obligations.RetireStationActsAsRetire := by
  refine fun a t s free supervisor online => ⟨fun present => ⟨enterQuiescing t s, fun b => by simp, ?_, ?_⟩, fun away => ?_⟩
  · exact answered_of_station free present rfl
  · exact answered_of_supervisor free supervisor online (if_pos present)
  · exact answered_of_supervisor free supervisor online (if_neg away)

/-! ### The end of a list of room waits -/

/-- The waiting post of station `a` passes lock `l`. -/
def State.passes (s : State) (a : StationId) (l : LockId) : Prop :=
  ∃ p, (s.st a).send = .awaitRoom p ∧ p.passLock = some l

/-- State `t` after the posts of the entries `gone` of state `s` have ended with outcome `o` and SENT (R17). -/
structure WaitsEnded (o : SendOutcome) (gone : List RoomEntry) (s t : State) : Prop where
  frame : t = { s with stations := t.stations, channels := t.channels, locks := t.locks }
  ended : ∀ e ∈ gone, ∀ p, (s.st e.station).send = .awaitRoom p → t.st e.station =
    StationRec.raised 5 { s.st e.station with send := .idle, sendResult := { outcome := o, sequence := p.sequence } }
  others : ∀ b, (∀ e ∈ gone, e.station ≠ b) → t.st b = s.st b
  counts : ∀ c, t.chan c = { s.chan c with count := (s.chan c).count - gone.countP fun e => e.channel == c }
  held : ∀ e ∈ gone, ∀ l, s.passes e.station l →
    t.lock l = { state := .held e.station, waiters := (s.lock l).waiters } ∨
      ∃ f ∈ gone, f.station ≠ e.station ∧ s.passes f.station l
  waiters : ∀ l, (t.lock l).waiters = (s.lock l).waiters
  unpassed : ∀ l, (∀ e ∈ gone, ¬ s.passes e.station l) → t.lock l = s.lock l

section
variable {o : SendOutcome} {e : RoomEntry} {p : Post} {s : State}

theorem WaitsEnded.nil (o : SendOutcome) (s : State) : WaitsEnded o [] s s := by
  constructor <;> simp

/-- The end of one wait. -/
theorem WaitsEnded.one (waits : (s.st e.station).send = .awaitRoom p) (channel : p.channel = e.channel) :
    WaitsEnded o [e] s (endRoomWait e.station o true s) := by
  rw [endRoomWait_eq waits]
  constructor
  case frame => rfl
  case ended =>
    intro x mem q own
    obtain rfl := List.mem_singleton.mp mem
    obtain rfl : p = q := by simpa [waits] using own
    simp [State.st]
  case others =>
    intro b away
    have ne : b ≠ e.station := fun same => away e (by simp) same.symm
    simp [State.st, ne]
  case counts =>
    intro c
    by_cases own : c = e.channel
    · subst own; simp [State.chan, channel]
    · have other : (e.channel == c) = false := by simpa using fun same => own same.symm
      simp [State.chan, channel, own, other]
  case held =>
    rintro x mem l ⟨q, own, passed⟩
    obtain rfl := List.mem_singleton.mp mem
    obtain rfl : p = q := by simpa [waits] using own
    exact .inl (by simp [State.lock, passed])
  case waiters =>
    intro l
    cases p.passLock with
    | none => simp [State.lock]
    | some k => by_cases own : l = k <;> simp [State.lock, own]
  case unpassed =>
    intro l none_passes
    cases passed : p.passLock with
    | none => simp [State.lock]
    | some k =>
      have ne : l ≠ k := fun same => none_passes e (by simp) ⟨p, waits, same ▸ passed⟩
      simp [State.lock, ne]

/-- The end of the waits of `gone` in list order. -/
theorem endRoomWaits_ended {gone : List RoomEntry} (distinct : (gone.map (·.station)).Nodup)
    (waits : ∀ e ∈ gone, ∃ p, (s.st e.station).send = .awaitRoom p ∧ p.channel = e.channel) :
    WaitsEnded o gone s (endRoomWaits gone o true s) := by
  induction gone generalizing s with
  | nil => exact WaitsEnded.nil o s
  | cons e rest ih =>
    obtain ⟨apart, distinct⟩ := List.nodup_cons.mp distinct
    have away : ∀ f ∈ rest, f.station ≠ e.station := fun f mem same =>
      apart (List.mem_map.mpr ⟨f, mem, same⟩)
    obtain ⟨p, own, channel⟩ := waits e List.mem_cons_self
    have first : WaitsEnded o [e] s (endRoomWait e.station o true s) := WaitsEnded.one own channel
    have kept : ∀ f ∈ rest, (endRoomWait e.station o true s).st f.station = s.st f.station := fun f mem =>
      first.others _ fun x one => by
        obtain rfl := List.mem_singleton.mp one
        exact (away f mem).symm
    have passes : ∀ f ∈ rest, ∀ l, (endRoomWait e.station o true s).passes f.station l ↔ s.passes f.station l :=
      fun f mem l => by simp only [State.passes, kept f mem]
    have later := ih (s := endRoomWait e.station o true s) distinct fun f mem => by
      rw [kept f mem]; exact waits f (List.mem_cons_of_mem _ mem)
    show WaitsEnded o (e :: rest) s (endRoomWaits rest o true (endRoomWait e.station o true s))
    generalize endRoomWait e.station o true s = u at first kept passes later
    generalize endRoomWaits rest o true u = t at later
    constructor
    case frame => rw [later.frame, first.frame]
    case ended =>
      intro f mem q waiting
      rcases List.mem_cons.mp mem with rfl | mem
      · rw [later.others _ away]
        exact first.ended f (by simp) q waiting
      · rw [later.ended f mem q (by rw [kept f mem]; exact waiting), kept f mem]
    case others =>
      intro b none_own
      rw [later.others b fun f mem => none_own f (List.mem_cons_of_mem _ mem),
        first.others b fun f one => none_own f (List.mem_singleton.mp one ▸ List.mem_cons_self)]
    case counts =>
      intro c
      rw [later.counts c, first.counts c]
      simp only [List.countP_cons, List.countP_nil]
      congr 1
      omega
    case held =>
      intro f mem l passing
      rcases List.mem_cons.mp mem with rfl | mem
      · by_cases again : ∃ g ∈ rest, s.passes g.station l
        · obtain ⟨g, inside, also⟩ := again
          exact .inr ⟨g, List.mem_cons_of_mem _ inside, away g inside, also⟩
        · refine .inl ?_
          rw [later.unpassed l fun g inside also => again ⟨g, inside, (passes g inside l).mp also⟩]
          refine (first.held f (by simp) l passing).resolve_right ?_
          rintro ⟨g, one, other, -⟩
          exact other (congrArg _ (List.mem_singleton.mp one))
      · rcases later.held f mem l ((passes f mem l).mpr passing) with now | ⟨g, inside, other, also⟩
        · exact .inl (by rw [now, first.waiters])
        · exact .inr ⟨g, List.mem_cons_of_mem _ inside, other, (passes g inside l).mp also⟩
    case waiters => exact fun l => (later.waiters l).trans (first.waiters l)
    case unpassed =>
      intro l none_passes
      rw [later.unpassed l fun g inside also => none_passes g (List.mem_cons_of_mem _ inside) ((passes g inside l).mp also),
        first.unpassed l fun g one => none_passes g (List.mem_singleton.mp one ▸ List.mem_cons_self)]
end

/-- The entries of channel `ch` in the room queue. -/
def State.waitingPosts (s : State) (ch : ChannelId) : List RoomEntry := s.roomQueue.filter fun e => e.channel == ch

/-- The state with entry `ch` CLOSED and its entries out of the room queue, before their posts end (R26, R17). -/
def State.closing (s : State) (ch : ChannelId) : State :=
  { s.modChan ch fun e => { e with state := .closed } with roomQueue := s.roomQueue.filter fun e => !(e.channel == ch) }

section
variable {s : State} {ch : ChannelId}

theorem State.mem_waitingPosts {e : RoomEntry} : e ∈ s.waitingPosts ch ↔ e ∈ s.roomQueue ∧ e.channel = ch := by
  simp [State.waitingPosts]

theorem State.waitingPosts_countP_same :
    ((s.waitingPosts ch).countP fun e => e.channel == ch) = s.roomQueue.countP fun e => e.channel == ch := by
  simp [State.waitingPosts, List.countP_filter]

theorem State.waitingPosts_countP_other {c : ChannelId} (other : c ≠ ch) :
    ((s.waitingPosts ch).countP fun e => e.channel == c) = 0 :=
  List.countP_eq_zero.mpr fun _ mem same =>
    other ((beq_iff_eq.mp same).symm.trans (State.mem_waitingPosts.mp mem).2)

theorem State.closing_chan_same : (s.closing ch).chan ch = { s.chan ch with state := .closed } := by
  simp [State.closing, State.modChan, State.chan]

theorem State.closing_chan_ne {c : ChannelId} (other : c ≠ ch) : (s.closing ch).chan c = s.chan c := by
  simp [State.closing, State.modChan, State.chan, other]

theorem removeWaiting_of_channel (o : SendOutcome) (sent : Bool) :
    removeWaiting (fun e => e.channel == ch) o sent (s.modChan ch fun e => { e with state := .closed }) =
      if s.roomQueue.head?.map (·.channel) = some ch then examine (endRoomWaits (s.waitingPosts ch) o sent (s.closing ch))
      else endRoomWaits (s.waitingPosts ch) o sent (s.closing ch) := by
  have head : (s.roomQueue.head?.any fun e => e.channel == ch) = true ↔ s.roomQueue.head?.map (·.channel) = some ch := by
    cases s.roomQueue.head? <;> simp
  by_cases own : s.roomQueue.head?.map (·.channel) = some ch
  · rw [if_pos own]
    exact if_pos (head.mpr own)
  · rw [if_neg own]
    exact if_neg fun any => own (head.mp any)

/-- The posts of the channel end, each once (R12). -/
theorem State.RoomQueueAgrees.waitsEnded (agrees : s.RoomQueueAgrees) : WaitsEnded .closed (s.waitingPosts ch) (s.closing ch)
    (endRoomWaits (s.waitingPosts ch) .closed true (s.closing ch)) := by
  obtain ⟨distinct, posts, -⟩ := agrees
  refine endRoomWaits_ended ((List.filter_sublist.map _).nodup distinct) fun e mem => ?_
  obtain ⟨p, waits, channel, -⟩ := posts e (State.mem_waitingPosts.mp mem).1
  exact ⟨p, waits, channel⟩
end

/-- Settles O36: the posts of the channel's entries end one after the other, and the new head is examined. -/
theorem closeChannelEndsItsRoomWaits : Obligations.CloseChannelEndsItsRoomWaits := by
  refine fun a ch s free supervisor online => ⟨fun closed => ?refused, fun opened agrees => ?closes⟩
  case refused => exact answered_of_supervisor free supervisor online (if_pos closed)
  case closes =>
    have still_open : ¬ (s.chan ch).state = .closed := by simp [opened]
    have ended := agrees.waitsEnded (ch := ch)
    have queue : (endRoomWaits (s.waitingPosts ch) .closed true (s.closing ch)).roomQueue =
        s.roomQueue.filter fun e => e.channel ≠ ch := by
      simp [State.closing, ← Bool.beq_eq_decide_eq]
    refine ⟨_, endRoomWaits (s.waitingPosts ch) .closed true (s.closing ch),
      answered_of_supervisor free supervisor online ((if_neg still_open).trans
        (congrArg (·, ResultCode.ok) (removeWaiting_of_channel .closed true))),
      fun head => if_pos head, fun head => if_neg head, ?frame, queue, ?own, fun c other => ?others,
      fun e mem p channel waits => ⟨?post, fun l passed => ?held⟩, fun b away => ?station, fun l unpassed => ?lock⟩
    case frame =>
      refine ended.frame.trans ?_
      rw [queue]
      simp [State.closing, State.modChan, ← Bool.beq_eq_decide_eq]
    case own => rw [ended.counts, State.waitingPosts_countP_same, State.closing_chan_same]
    case others => rw [ended.counts, State.waitingPosts_countP_other other, State.closing_chan_ne other]; rfl
    case post => exact ended.ended e (State.mem_waitingPosts.mpr ⟨mem, channel⟩) p waits
    case held =>
      rcases ended.held e (State.mem_waitingPosts.mpr ⟨mem, channel⟩) l ⟨p, waits, passed⟩ with
        now | ⟨f, also, other, q, waiting, passes⟩
      · exact .inl now
      · obtain ⟨inside, same⟩ := State.mem_waitingPosts.mp also
        exact .inr ⟨f, inside, same, other, q, waiting, passes⟩
    case station =>
      refine ended.others b fun e mem own => ?_
      obtain ⟨inside, channel⟩ := State.mem_waitingPosts.mp mem
      exact away e inside own channel
    case lock =>
      refine ended.unpassed l fun e mem passes => ?_
      obtain ⟨inside, channel⟩ := State.mem_waitingPosts.mp mem
      obtain ⟨p, waits, passed⟩ := passes
      exact unpassed e inside channel p waits passed

end Sys2Proof.Machine
end

section
/-! Packed words and their fields: what a layout of fields reads as (spec section 10.7). -/

namespace Sys2Proof.Machine

-- One proof at a time: many at once take more threads than the check allows.
set_option Elab.async false

/-! ### One field -/

section
variable {fields : List (Nat × Nat)}

theorem bits_of_placed {hi lo v : Nat} (field : placed fields % 2 ^ 32 / 2 ^ lo % 2 ^ (hi + 1 - lo) = v) :
    bits (pack fields) hi lo = v := (bits_pack fields hi lo).trans field

theorem getLsbD_of_placed {i : Nat} {b : Bool} (h : i < 32) (field : placed fields / 2 ^ i % 2 = flagValue b) :
    (pack fields).getLsbD i = b := by
  rw [Bool.eq_iff_iff, getLsbD_pack fields h, field]
  cases b <;> simp

theorem extract_of_placed {lo n v : Nat} (field : placed fields % 2 ^ 32 / 2 ^ lo % 2 ^ n = v) :
    ((pack fields).extractLsb' lo n).toNat = v := by
  rw [BitVec.extractLsb'_toNat, pack_toNat, Nat.shiftRight_eq_div_pow, field]
end

/-! ### Rows of fields of one width -/

/-- The fields of width `w` that hold these values, the first in the lowest bits. -/
def rowFields (w : Nat) (vs : List Nat) : List (Nat × Nat) := vs.zipIdx.map fun x => (w * x.2, x.1)

theorem placed_map_shift (k : Nat) (fields : List (Nat × Nat)) :
    placed (fields.map fun x => (k + x.1, x.2)) = 2 ^ k * placed fields := by
  induction fields with
  | nil => rfl
  | cons x rest ih =>
    simp only [List.map_cons, placed, ih]
    ring

theorem placed_append (xs ys : List (Nat × Nat)) : placed (xs ++ ys) = placed xs + placed ys := by
  induction xs with
  | nil => simp [placed]
  | cons x xs ih => simp only [List.cons_append, placed, ih, Nat.add_assoc]

theorem placed_rowFields_cons (w v : Nat) (vs : List Nat) :
    placed (rowFields w (v :: vs)) = v + 2 ^ w * placed (rowFields w vs) := by
  have shifted : rowFields w (v :: vs) = (0, v) :: (rowFields w vs).map fun x => (w + x.1, x.2) := by
    simp only [rowFields, List.zipIdx_cons', List.map_cons, List.map_map, Nat.mul_zero, List.cons.injEq,
      true_and]
    refine List.map_congr_left fun x _ => ?_
    simp only [Function.comp_apply, Prod.map, id_eq, Prod.mk.injEq, and_true]
    ring
  rw [shifted, placed, placed_map_shift, Nat.pow_zero, Nat.mul_one]

section
variable {w : Nat} {vs : List Nat}

theorem placed_rowFields_lt (small : ∀ v ∈ vs, v < 2 ^ w) : placed (rowFields w vs) < 2 ^ (w * vs.length) := by
  induction vs with
  | nil => simp [rowFields, placed]
  | cons v vs ih =>
    have head := small v List.mem_cons_self
    have tail := ih fun x mem => small x (List.mem_cons_of_mem _ mem)
    rw [placed_rowFields_cons, List.length_cons, Nat.mul_succ, Nat.pow_add, Nat.mul_comm (2 ^ (w * vs.length))]
    calc v + 2 ^ w * placed (rowFields w vs) < 2 ^ w + 2 ^ w * placed (rowFields w vs) := by omega
      _ = 2 ^ w * (placed (rowFields w vs) + 1) := by ring
      _ ≤ 2 ^ w * 2 ^ (w * vs.length) := Nat.mul_le_mul_left _ tail

/-- Field `i` of a row holds value `i`, or 0 behind the last. -/
theorem placed_rowFields (small : ∀ v ∈ vs, v < 2 ^ w) (i : Nat) :
    placed (rowFields w vs) / 2 ^ (w * i) % 2 ^ w = vs.getD i 0 := by
  induction vs generalizing i with
  | nil => simp [rowFields, placed]
  | cons v vs ih =>
    have head := small v List.mem_cons_self
    rw [placed_rowFields_cons]
    cases i with
    | zero => simp [Nat.mod_eq_of_lt head]
    | succ i =>
      rw [Nat.mul_succ, Nat.add_comm (w * i), Nat.pow_add, ← Nat.div_div_eq_div_mul, Nat.add_mul_div_left _ _ (by positivity),
        Nat.div_eq_of_lt head, Nat.zero_add, List.getD_cons_succ]
      exact ih (fun x mem => small x (List.mem_cons_of_mem _ mem)) i
end

/-- A table of fields is a row. -/
theorem finRange_fields {n : Nat} (w : Nat) (f : Fin n → Nat) :
    ((List.finRange n).map fun i => (w * i.val, f i)) = rowFields w ((List.finRange n).map f) := by
  refine List.ext_getElem (by simp [rowFields]) fun i h h' => ?_
  simp [rowFields]

theorem stationFields_eq (l : List StationId) : stationFields l = rowFields 3 (l.map (·.val)) := by
  refine List.ext_getElem (by simp [rowFields, stationFields]) fun i h h' => ?_
  simp [rowFields, stationFields]

theorem getD_map_finRange {n : Nat} (f : Fin n → Nat) (i : Fin n) : ((List.finRange n).map f).getD i.val 0 = f i := by
  simp

section
variable {n w : Nat} {f : Fin n → Nat}

/-- Field `i` of a table. -/
theorem placed_table (small : ∀ i, f i < 2 ^ w) (i : Fin n) :
    placed ((List.finRange n).map fun i => (w * i.val, f i)) / 2 ^ (w * i.val) % 2 ^ w = f i := by
  rw [finRange_fields, placed_rowFields, getD_map_finRange]
  simpa using small

theorem placed_table_lt (small : ∀ i, f i < 2 ^ w) :
    placed ((List.finRange n).map fun i => (w * i.val, f i)) < 2 ^ (w * n) := by
  have row := placed_rowFields_lt (w := w) (vs := (List.finRange n).map f) (by simpa using small)
  rw [List.length_map, List.length_finRange] at row
  rwa [finRange_fields]
end

/-- A list of stations in fields of 3 bits (R193). -/
theorem placed_stationFields (l : List StationId) (i : Nat) :
    placed (stationFields l) / 2 ^ (3 * i) % 2 ^ 3 = (l[i]?.map (·.val)).getD 0 := by
  rw [stationFields_eq, placed_rowFields]
  · simp [List.getD_eq_getElem?_getD]
  · intro v mem
    obtain ⟨b, -, rfl⟩ := List.mem_map.mp mem
    exact b.isLt

theorem placed_stationFields_lt (l : List StationId) : placed (stationFields l) < 2 ^ (3 * l.length) := by
  have row := placed_rowFields_lt (w := 3) (vs := l.map (·.val)) fun v mem => by
    obtain ⟨b, -, rfl⟩ := List.mem_map.mp mem
    exact b.isLt
  rw [List.length_map] at row
  rwa [stationFields_eq]

end Sys2Proof.Machine
end

section
/-! What each word of the window reads as (O48). -/

namespace Sys2Proof.Machine

-- One proof at a time: many at once take more threads than the check allows.
set_option Elab.async false

/-! ### Message headers (Table 10-7) -/

section
variable {m : Message}

theorem headerWord0_placed (m : Message) : headerWord0 m = pack [(31, 1), (24, flagValue m.confirm),
    (19, (m.carriedLock.map (·.val)).getD 0), (18, flagValue m.carriedLock.isSome), (12, m.channel.val),
    (9, m.source.val), (7, m.cls.val), (0, m.length)] := rfl

theorem carriedLock_field_lt (m : Message) : (m.carriedLock.map (·.val)).getD 0 < 32 := by
  cases m.carriedLock with
  | none => simp
  | some l => exact l.isLt

/-- The sum of the header's fields: the valid bit, and each field of the record at its place. -/
theorem headerWord0_fields (short : m.length ≤ 64) :
    (headerWord0 m).extractLsb' 31 1 = 1 ∧ (headerWord0 m).extractLsb' 25 6 = 0 ∧
    (headerWord0 m).getLsbD 24 = m.confirm ∧
    ((headerWord0 m).extractLsb' 19 5).toNat = (m.carriedLock.map (·.val)).getD 0 ∧
    ((headerWord0 m).extractLsb' 18 6).toNat = (m.carriedLock.map (·.val)).getD 0 * 2 + flagValue m.carriedLock.isSome ∧
    (headerWord0 m).getLsbD 18 = m.carriedLock.isSome ∧ ((headerWord0 m).extractLsb' 12 6).toNat = m.channel.val ∧
    ((headerWord0 m).extractLsb' 9 3).toNat = m.source.val ∧ ((headerWord0 m).extractLsb' 7 2).toNat = m.cls.val ∧
    ((headerWord0 m).extractLsb' 0 7).toNat = m.length := by
  have confirm := flagValue_le m.confirm
  have lock := carriedLock_field_lt m
  have carries := flagValue_le m.carriedLock.isSome
  have channel := m.channel.isLt
  have source := m.source.isLt
  have cls := m.cls.isLt
  rw [headerWord0_placed]
  refine ⟨BitVec.eq_of_toNat_eq (extract_of_placed ?_), BitVec.eq_of_toNat_eq (extract_of_placed ?_),
    getLsbD_of_placed (by decide) ?_, extract_of_placed ?_, extract_of_placed ?_, getLsbD_of_placed (by decide) ?_,
    extract_of_placed ?_, extract_of_placed ?_, extract_of_placed ?_, extract_of_placed ?_⟩
  all_goals simp only [placed, BitVec.ofNat_eq_ofNat, BitVec.toNat_ofNat]; omega

theorem headerWord1_eq (m : Message) : headerWord1 m = m.tag ++ m.sequence := by
  have sequence := m.sequence.isLt
  have tag := m.tag.isLt
  refine BitVec.eq_of_toNat_eq ?_
  rw [headerWord1, pack_toNat, BitVec.toNat_append, ← Nat.shiftLeft_add_eq_or_of_lt sequence, Nat.shiftLeft_eq]
  simp only [placed]
  omega
end

/-! ### Aperture words -/

section
variable (r : StationRec)

theorem StationRec.statusWord_fields : bits r.statusWord 1 0 = r.state.code ∧ bits r.statusWord 3 2 = r.send.code ∧
    r.statusWord.getLsbD 4 = r.readSlot.isSome ∧ r.statusWord.getLsbD 5 = r.wait.isSome ∧
    bits r.statusWord 12 8 = (r.wait.map (·.lock.val)).getD 0 ∧ bits r.statusWord 17 16 = r.lastWait.code := by
  have state := r.state.code_le
  have send := r.send.code_le
  have slot := flagValue_le r.readSlot.isSome
  have waits := flagValue_le r.wait.isSome
  have lock : (r.wait.map (·.lock.val)).getD 0 < 32 := by
    cases r.wait with
    | none => simp
    | some x => exact x.lock.isLt
  have last := r.lastWait.code_le
  rw [StationRec.statusWord]
  refine ⟨bits_of_placed ?_, bits_of_placed ?_, getLsbD_of_placed (by decide) ?_, getLsbD_of_placed (by decide) ?_,
    bits_of_placed ?_, bits_of_placed ?_⟩
  all_goals simp only [placed]; omega

theorem StationRec.confirmHeadWord_nil (empty : r.confirms = []) : r.confirmHeadWord.getLsbD 31 = false ∧
    r.confirmHeadWord.getLsbD 30 = r.confirmOverflow ∧ bits r.confirmHeadWord 29 0 = 0 := by
  have overflow := flagValue_le r.confirmOverflow
  rw [StationRec.confirmHeadWord, empty]
  refine ⟨getLsbD_of_placed (by decide) ?_, getLsbD_of_placed (by decide) ?_, bits_of_placed ?_⟩
  all_goals simp only [placed, flagValue_false]; omega

theorem StationRec.confirmHeadWord_cons {e : Confirmation} {rest : List Confirmation} (list : r.confirms = e :: rest)
    (short : r.confirms.length ≤ 16) : r.confirmHeadWord.getLsbD 31 = true ∧
    r.confirmHeadWord.getLsbD 30 = r.confirmOverflow ∧ bits r.confirmHeadWord 28 24 = r.confirms.length ∧
    bits r.confirmHeadWord 23 22 = e.outcome.code ∧ bits r.confirmHeadWord 21 16 = e.channel.val ∧
    bits r.confirmHeadWord 15 0 = e.sequence.toNat := by
  have overflow := flagValue_le r.confirmOverflow
  have outcome := e.outcome.code_le
  have channel := e.channel.isLt
  have sequence := e.sequence.isLt
  have word : r.confirmHeadWord = pack [(31, 1), (30, flagValue r.confirmOverflow), (24, r.confirms.length),
      (22, e.outcome.code), (16, e.channel.val), (0, e.sequence.toNat)] := by rw [StationRec.confirmHeadWord, list]
  rw [word]
  refine ⟨getLsbD_of_placed (by decide) ?_, getLsbD_of_placed (by decide) ?_, bits_of_placed ?_, bits_of_placed ?_,
    bits_of_placed ?_, bits_of_placed ?_⟩
  all_goals simp only [placed, flagValue_true]; omega

theorem StationRec.serving_iff (n : SourceId) : r.serving n = true ↔ ∃ e ∈ r.inService, e.source = n := by
  simp [StationRec.serving]

theorem StationRec.inServiceWord_fields (short : r.inService.length ≤ 7) (low : ∀ e ∈ r.inService, e.level ≤ 7) :
    (∀ n : SourceId, r.inServiceWord.getLsbD (16 + n.val) = r.serving n) ∧
    bits r.inServiceWord 2 0 = r.inService.length ∧ bits r.inServiceWord 10 8 = r.topLevel ∧
    bits r.inServiceWord 6 4 = (r.inService.getLast?.map (·.source.val)).getD 0 := by
  have top : r.topLevel ≤ 7 := by
    unfold StationRec.topLevel
    split
    · rename_i e last
      exact low e (List.mem_of_getLast? last)
    · omega
  have newest : (r.inService.getLast?.map (·.source.val)).getD 0 < 8 := by
    cases r.inService.getLast? with
    | none => simp
    | some e => exact e.source.isLt
  have flags : (allSources.map fun n => (n.val, flagValue (r.serving n))) =
      (List.finRange 8).map fun n => (1 * n.val, flagValue (r.serving n)) := by
    simp only [Nat.one_mul]
    rfl
  have small : ∀ n : SourceId, flagValue (r.serving n) < 2 ^ 1 := fun n => by
    have := flagValue_le (r.serving n)
    omega
  have row := placed_table small
  have below := placed_table_lt small
  rw [StationRec.inServiceWord, flags]
  generalize placed ((List.finRange 8).map fun n => (1 * n.val, flagValue (r.serving n))) = p at row below
  refine ⟨fun n => getLsbD_of_placed (by omega) ?_, bits_of_placed ?_, bits_of_placed ?_, bits_of_placed ?_⟩
  case refine_1 =>
    have field := row n
    simp only [placed]
    rw [Nat.pow_add, ← Nat.div_div_eq_div_mul]
    have high : (p * 2 ^ 16 + (r.topLevel * 2 ^ 8 + ((r.inService.getLast?.map (·.source.val)).getD 0 * 2 ^ 4 +
        (r.inService.length * 2 ^ 0 + 0)))) / 2 ^ 16 = p := by omega
    rw [high]
    simpa using field
  all_goals simp only [placed]; omega

theorem StationRec.faultRecordWord_fields : r.faultRecordWord.getLsbD 31 = r.multiple ∧
    bits r.faultRecordWord 3 0 = (r.fault.map (·.code.code)).getD 0 := by
  have multiple := flagValue_le r.multiple
  have code : (r.fault.map (·.code.code)).getD 0 ≤ 8 := by
    cases r.fault with
    | none => simp
    | some f => exact f.code.code_le
  rw [StationRec.faultRecordWord]
  refine ⟨getLsbD_of_placed (by decide) ?_, bits_of_placed ?_⟩
  all_goals simp only [placed]; omega

theorem StationRec.notifyLevels_field (n : SourceId) :
    bits (pack [(0, r.levels.toNat)]) (3 * n.val + 2) (3 * n.val) = r.sourceLevel n := by
  have levels := r.levels.isLt
  rw [bits_pack, sourceLevel_eq, StationRec.level]
  have width : 3 * n.val + 2 + 1 - 3 * n.val = 3 := by omega
  have sum : placed [(0, r.levels.toNat)] % 2 ^ 32 = r.levels.toNat := by simp only [placed]; omega
  rw [width, sum]
  rfl
end

/-- A field of 8 bits for each class. -/
theorem classWord_field {f : ClassId → Nat} (small : ∀ c, f c ≤ 255) (c : ClassId) :
    bits (pack (allClasses.map fun c => (8 * c.val, f c))) (8 * c.val + 7) (8 * c.val) = f c := by
  have small' : ∀ c, f c < 2 ^ 8 := fun c => Nat.lt_succ_of_le (small c)
  have table : (allClasses.map fun c => (8 * c.val, f c)) = (List.finRange 4).map fun c => (8 * c.val, f c) := rfl
  have width : 8 * c.val + 7 + 1 - 8 * c.val = 8 := by omega
  have below := placed_table_lt small'
  rw [bits_pack, table, Nat.mod_eq_of_lt below, width]
  exact placed_table small' c

/-- LOCKS_OWNED has the bit of each lock HELD or PLEDGED by the station. -/
theorem locksOwnedWord_bit (a : StationId) (s : State) (l : LockId) : (locksOwnedWord a s).getLsbD l.val = true ↔
    (s.lock l).state = .held a ∨ (s.lock l).state = .pledged a := by
  have table : locksOwnedWord a s =
      pack ((List.finRange 32).map fun l => (1 * l.val, flagValue ((s.lock l).state.ownedBy a))) := by
    unfold locksOwnedWord
    refine congrArg pack (List.map_congr_left fun l _ => ?_)
    simp only [Nat.one_mul, Prod.mk.injEq, true_and]
    cases (s.lock l).state <;> rfl
  have small : ∀ l, flagValue ((s.lock l).state.ownedBy a) < 2 ^ 1 := fun l => Nat.lt_succ_of_le (flagValue_le _)
  have field := placed_table small l
  rw [table, getLsbD_of_placed l.isLt (by simpa using field)]
  exact LockState.ownedBy_iff _ _

/-! ### Words of the global page -/

section
variable (s : State)

theorem stationStates_fields : (∀ b : StationId,
      bits (readGlobal .stationStates s) (2 * b.val + 1) (2 * b.val) = (s.st b).state.code) ∧
    bits (readGlobal .stationStates s) 18 16 = s.supervisor.val := by
  have small : ∀ b, (s.st b).state.code < 2 ^ 2 := fun b => Nat.lt_succ_of_le (Nat.le_succ_of_le (s.st b).state.code_le)
  have row := placed_table small
  have below := placed_table_lt small
  have supervisor := s.supervisor.isLt
  have word : readGlobal .stationStates s =
      pack ((16, s.supervisor.val) :: (List.finRange 8).map fun a => (2 * a.val, (s.st a).state.code)) := rfl
  rw [word]
  generalize (List.finRange 8).map (fun a => (2 * a.val, (s.st a).state.code)) = fields at row below
  refine ⟨fun b => ?_, bits_of_placed ?_⟩
  · have field := row b
    have width : 2 * b.val + 1 + 1 - 2 * b.val = 2 := by omega
    rw [bits_pack, width, placed]
    have sum : (s.supervisor.val * 2 ^ 16 + placed fields) % 2 ^ 32 =
        placed fields + 2 ^ (2 * b.val) * (2 ^ 2 * (s.supervisor.val * 2 ^ (14 - 2 * b.val))) := by
      have split : 2 ^ (2 * b.val) * (2 ^ 2 * (s.supervisor.val * 2 ^ (14 - 2 * b.val))) = s.supervisor.val * 2 ^ 16 := by
        have exponent : 2 * b.val + 2 + (14 - 2 * b.val) = 16 := by omega
        rw [← exponent, Nat.pow_add, Nat.pow_add]
        ring
      rw [split]
      omega
    rw [sum, Nat.add_mul_div_left _ _ (by positivity), Nat.add_mul_mod_self_left, field]
  · rw [placed]; omega

theorem storeStatus_fields (queue : s.roomQueue.length ≤ 8) (descs : s.freeDescs.length ≤ 256)
    (cells : s.freeCells.length ≤ 1024) : bits (readGlobal .storeStatus s) 31 28 = s.roomQueue.length ∧
    bits (readGlobal .storeStatus s) 24 16 = s.freeDescs.length ∧
    bits (readGlobal .storeStatus s) 10 0 = s.freeCells.length := by
  have word : readGlobal .storeStatus s =
      pack [(28, s.roomQueue.length), (16, s.freeDescs.length), (0, s.freeCells.length)] := rfl
  rw [word]
  refine ⟨bits_of_placed ?_, bits_of_placed ?_, bits_of_placed ?_⟩
  all_goals simp only [placed]; omega

/-- A word with a list of at most eight stations in bits 23 to 0, and other fields above: the stations, and the rest. -/
theorem bits_of_stations {fields : List (Nat × Nat)} {high : Nat} {l : List StationId} (short : l.length ≤ 8)
    (sum : placed fields = high * 2 ^ 24 + placed (stationFields l)) (fits : high < 256) :
    (∀ i : Fin 8, bits (pack fields) (3 * i.val + 2) (3 * i.val) = (l[i.val]?.map (·.val)).getD 0) ∧
    bits (pack fields) 27 24 = high % 16 ∧ bits (pack fields) 31 28 = high / 16 := by
  have below : placed (stationFields l) < 2 ^ 24 :=
    (placed_stationFields_lt l).trans_le (Nat.pow_le_pow_right (by decide) (by omega))
  refine ⟨fun i => ?_, bits_of_placed ?_, bits_of_placed ?_⟩
  · have field := placed_stationFields l i.val
    have width : 3 * i.val + 2 + 1 - 3 * i.val = 3 := by omega
    have split : high * 2 ^ 24 = 2 ^ (3 * i.val) * (2 ^ 3 * (high * 2 ^ (21 - 3 * i.val))) := by
      have exponent : 3 * i.val + 3 + (21 - 3 * i.val) = 24 := by omega
      rw [← exponent, Nat.pow_add, Nat.pow_add]
      ring
    have whole : placed fields % 2 ^ 32 = high * 2 ^ 24 + placed (stationFields l) := by omega
    rw [bits_pack, width, whole, split, Nat.add_comm, Nat.add_mul_div_left _ _ (by positivity),
      Nat.add_mul_mod_self_left, field]
  all_goals rw [sum]; omega

theorem roomQueueWord_fields (queue : s.roomQueue.length ≤ 8) (needs : ∀ e ∈ s.roomQueue, e.cellsNeeded ≤ 8) :
    bits (roomQueueWord s) 27 24 = s.roomQueue.length ∧
    bits (roomQueueWord s) 31 28 = (s.roomQueue.head?.map (·.cellsNeeded)).getD 0 ∧
    ∀ i : Fin 8, bits (roomQueueWord s) (3 * i.val + 2) (3 * i.val) = (s.roomQueue[i.val]?.map (·.station.val)).getD 0 := by
  have need : (s.roomQueue.head?.map (·.cellsNeeded)).getD 0 ≤ 8 := by
    cases head : s.roomQueue.head? with
    | none => simp
    | some e => exact needs e (List.mem_of_head? head)
  have stations : (s.roomQueue.map (·.station)).length ≤ 8 := by rwa [List.length_map]
  obtain ⟨entries, length, first⟩ := bits_of_stations
    (fields := [(28, (s.roomQueue.head?.map (·.cellsNeeded)).getD 0), (24, s.roomQueue.length)] ++
      stationFields (s.roomQueue.map (·.station)))
    (high := (s.roomQueue.head?.map (·.cellsNeeded)).getD 0 * 16 + s.roomQueue.length) stations
    (by rw [placed_append]; simp only [placed]; omega) (by omega)
  refine ⟨length.trans (by omega), first.trans (by omega), fun i => (entries i).trans ?_⟩
  rw [List.getElem?_map, Option.map_map]
  rfl

theorem lockWaitersWord_fields (l : LockId) (short : (s.lock l).waiters.length ≤ 8) :
    bits (readGlobal (.lockWaiters l) s) 27 24 = (s.lock l).waiters.length ∧
    ∀ i : Fin 8, bits (readGlobal (.lockWaiters l) s) (3 * i.val + 2) (3 * i.val) =
      ((s.lock l).waiters[i.val]?.map (·.val)).getD 0 := by
  obtain ⟨entries, length, -⟩ := bits_of_stations
    (fields := (24, (s.lock l).waiters.length) :: stationFields (s.lock l).waiters)
    (high := (s.lock l).waiters.length) short (by rw [placed]) (by omega)
  exact ⟨length.trans (by omega), entries⟩

theorem engineStatusWord_idle (idle : s.engine.delivery = none) (burst : s.burst ≤ 16) :
    bits (engineStatusWord s) 27 25 = s.rrPointer.val ∧ bits (engineStatusWord s) 24 20 = s.burst ∧
    bits (engineStatusWord s) 1 0 = s.engine.code ∧ bits (engineStatusWord s) 19 2 = 0 := by
  have pointer := s.rrPointer.isLt
  have code := s.engine.code_le
  rw [engineStatusWord, idle]
  refine ⟨bits_of_placed ?_, bits_of_placed ?_, bits_of_placed ?_, bits_of_placed ?_⟩
  all_goals simp only [placed, List.append_nil]; omega

theorem engineStatusWord_delivery {d : Delivery} (delivery : s.engine.delivery = some d) (burst : s.burst ≤ 16)
    (retries : d.retries ≤ 8) :
    bits (engineStatusWord s) 27 25 = s.rrPointer.val ∧ bits (engineStatusWord s) 24 20 = s.burst ∧
    bits (engineStatusWord s) 1 0 = s.engine.code ∧ bits (engineStatusWord s) 19 16 = d.retries ∧
    bits (engineStatusWord s) 15 8 = d.desc.val ∧ bits (engineStatusWord s) 6 5 = d.cls.val ∧
    bits (engineStatusWord s) 4 2 = d.station.val := by
  have pointer := s.rrPointer.isLt
  have code := s.engine.code_le
  have desc := d.desc.isLt
  have cls := d.cls.isLt
  have station := d.station.isLt
  rw [engineStatusWord, delivery]
  refine ⟨bits_of_placed ?_, bits_of_placed ?_, bits_of_placed ?_, bits_of_placed ?_, bits_of_placed ?_, bits_of_placed ?_,
    bits_of_placed ?_⟩
  all_goals simp only [placed, List.cons_append, List.nil_append]; omega

theorem engineConfig_fields (burst : s.burstLimit ≤ 16) (retry : s.retryBudget ≤ 7) (response : s.responseLimit ≤ 255) :
    bits (readGlobal .engineConfig s) 20 16 = s.burstLimit ∧ bits (readGlobal .engineConfig s) 10 8 = s.retryBudget ∧
    bits (readGlobal .engineConfig s) 7 0 = s.responseLimit := by
  have word : readGlobal .engineConfig s = pack [(16, s.burstLimit), (8, s.retryBudget), (0, s.responseLimit)] := rfl
  rw [word]
  refine ⟨bits_of_placed ?_, bits_of_placed ?_, bits_of_placed ?_⟩
  all_goals simp only [placed]; omega
end

theorem Channel.routeWord_fields (e : Channel) : bits e.routeWord 23 16 = e.mask.toNat ∧ e.routeWord.getLsbD 8 = e.pass ∧
    e.routeWord.getLsbD 7 = e.confirm ∧ e.routeWord.getLsbD 6 = e.hold ∧ bits e.routeWord 5 4 = e.cls.val ∧
    bits e.routeWord 3 1 = e.dest.val ∧ bits e.routeWord 0 0 = e.state.code := by
  have mask := e.mask.isLt
  have pass := flagValue_le e.pass
  have confirm := flagValue_le e.confirm
  have hold := flagValue_le e.hold
  have cls := e.cls.isLt
  have dest := e.dest.isLt
  have state := e.state.code_le
  rw [Channel.routeWord]
  refine ⟨bits_of_placed ?_, getLsbD_of_placed (by decide) ?_, getLsbD_of_placed (by decide) ?_,
    getLsbD_of_placed (by decide) ?_, bits_of_placed ?_, bits_of_placed ?_, bits_of_placed ?_⟩
  all_goals simp only [placed]; omega

theorem LockRecord.recordWord_fields (e : LockRecord) (short : e.waiters.length ≤ 8) :
    bits e.recordWord 19 16 = e.waiters.length ∧ bits e.recordWord 15 8 = e.state.carrierField ∧
    bits e.recordWord 4 2 = e.state.ownerField ∧ bits e.recordWord 1 0 = e.state.code := by
  have carrier : e.state.carrierField < 256 := by
    cases e.state with
    | carried d => exact d.isLt
    | _ => exact Nat.zero_lt_succ 255
  have owner : e.state.ownerField < 8 := by
    cases e.state with
    | held o => exact o.isLt
    | pledged o => exact o.isLt
    | _ => exact Nat.zero_lt_succ 7
  have code := e.state.code_le
  rw [LockRecord.recordWord]
  refine ⟨bits_of_placed ?_, bits_of_placed ?_, bits_of_placed ?_, bits_of_placed ?_⟩
  all_goals simp only [placed]; omega

/-! ### The words together -/

/-- The payload window and the read header by the read slot (R70). -/
theorem readSlot_words (a : StationId) (s : State) :
    ((s.st a).readSlot = none → readAperture a .readHeader0 s = 0 ∧ readAperture a .readHeader1 s = 0 ∧
      ∀ i, readAperture a (.payload i) s = 0) ∧
    ∀ slot, (s.st a).readSlot = some slot → readAperture a .readHeader0 s = slot.header0 ∧
      readAperture a .readHeader1 s = slot.header1 ∧
      ∀ m, s.msg slot.desc = some m → ∀ i : Fin 64, (m.length ≤ i.val → readAperture a (.payload i) s = 0) ∧
        ∀ c, i.val < m.length → m.cells[i.val / 8]? = some c →
          readAperture a (.payload i) s = CellStore.read s.cellStore (8 * c.val + i.val % 8) := by
  refine ⟨fun empty => ?_, fun slot holds => ?_⟩
  · simp [readAperture, payloadWindow, empty]
  · refine ⟨by simp [readAperture, holds], by simp [readAperture, holds], fun m hm i => ⟨fun behind => ?_,
      fun c below cell => ?_⟩⟩
    · simp [readAperture, payloadWindow, holds, hm, payloadWord, Nat.not_lt.mpr behind]
    · have place : payloadPlace m.cells i.val = some (8 * c.val + i.val % 8) := payloadPlace_eq_some.mpr ⟨c, cell, rfl⟩
      simp [readAperture, payloadWindow, holds, hm, payloadWord, below, place]

theorem ResultCode.codes : ∀ x ∈ [(ResultCode.ok, 0), (.pending, 1), (.busy, 2), (.notOnline, 3), (.badCommand, 4),
    (.badOperand, 5), (.notSupervisor, 6), (.inUse, 7), (.badChannel, 8), (.notPermitted, 9), (.destOffline, 10),
    (.channelFull, 11), (.noRoom, 12), (.empty, 14), (.holding, 15), (.notHolding, 16), (.lockNotOwned, 17),
    (.lockPledged, 18), (.passNotAllowed, 19), (.alreadyHeld, 20), (.lockBusy, 21), (.notWaiting, 25), (.ringMode, 26),
    (.ringInvalid, 27)], x.1.code = x.2 := by decide

section
variable (a : StationId) (s : State)

theorem result_fields : bits (readAperture a .result s) 7 0 = (s.st a).result.code.code ∧
    bits (readAperture a .result s) 15 8 = (s.st a).result.command.toNat := by
  have code := (s.st a).result.code.code_le
  have command := (s.st a).result.command.isLt
  have word : readAperture a .result s = pack [(8, (s.st a).result.command.toNat), (0, (s.st a).result.code.code)] := rfl
  rw [word]
  refine ⟨bits_of_placed ?_, bits_of_placed ?_⟩
  all_goals simp only [placed]; omega

/-- Two values of 16 bits in one word. -/
theorem halves_fields (x y : Half) : bits (pack [(16, x.toNat), (0, y.toNat)]) 31 16 = x.toNat ∧
    bits (pack [(16, x.toNat), (0, y.toNat)]) 15 0 = y.toNat := by
  have hx := x.isLt
  have hy := y.isLt
  refine ⟨bits_of_placed ?_, bits_of_placed ?_⟩
  all_goals simp only [placed]; omega

theorem sendResult_fields : bits (readAperture a .sendResult s) 18 16 = (s.st a).sendResult.outcome.code ∧
    bits (readAperture a .sendResult s) 15 0 = (s.st a).sendResult.sequence.toNat := by
  have outcome := (s.st a).sendResult.outcome.code_le
  have sequence := (s.st a).sendResult.sequence.isLt
  have word : readAperture a .sendResult s =
      pack [(16, (s.st a).sendResult.outcome.code), (0, (s.st a).sendResult.sequence.toNat)] := rfl
  rw [word]
  refine ⟨bits_of_placed ?_, bits_of_placed ?_⟩
  all_goals simp only [placed]; omega

theorem ringStatus_fields (slots : (s.st a).ring.latchedSlots ≤ 256) :
    bits (readAperture a .ringStatus s) 16 8 = (s.st a).ring.latchedSlots ∧
    bits (readAperture a .ringStatus s) 2 0 = (s.st a).ring.state.code := by
  have state := (s.st a).ring.state.code_le
  have word : readAperture a .ringStatus s = pack [(8, (s.st a).ring.latchedSlots), (0, (s.st a).ring.state.code)] := rfl
  rw [word]
  refine ⟨bits_of_placed ?_, bits_of_placed ?_⟩
  all_goals simp only [placed]; omega
end

theorem StationRec.confirmHeadWord_overflow (r : StationRec) (short : r.confirms.length ≤ 16) :
    r.confirmHeadWord.getLsbD 30 = r.confirmOverflow := by
  cases list : r.confirms with
  | nil => exact (r.confirmHeadWord_nil list).2.1
  | cons e rest => exact (r.confirmHeadWord_cons list short).2.1

/-- Settles O48: word by word, by the fields of its layout; a code is that of its table. -/
theorem windowWordsReadTheirContent : Obligations.WindowWordsReadTheirContent := by
  refine ⟨fun m short => ?header, ?aperture, ?global⟩
  case header =>
    obtain ⟨valid, zero, confirm, lock, both, carries, channel, source, cls, length⟩ := headerWord0_fields short
    refine ⟨valid, zero, confirm, fun l carried => ⟨?_, ?_⟩, fun free => ?_, channel, source, cls, length, headerWord1_eq m,
      fun empty => ?_⟩
    · rw [lock, carried]; rfl
    · rw [carries, carried]; rfl
    · exact BitVec.eq_of_toNat_eq (by rw [both, free]; rfl)
    · rw [empty] at valid
      exact absurd valid (by decide)
  case aperture =>
    intro s a r w own words
    subst own
    obtain rfl : w = fun k => readAperture a k s := funext words
    obtain ⟨code, command⟩ := result_fields a s
    obtain ⟨state, send, slot, waits, lock, last⟩ := (s.st a).statusWord_fields
    obtain ⟨lockLimit, roomLimit⟩ := halves_fields (s.st a).lockWaitLimit (s.st a).roomWaitLimit
    obtain ⟨outcome, sequence⟩ := sendResult_fields a s
    obtain ⟨consumed, produced⟩ := halves_fields (s.st a).ring.consumed (s.st a).ring.produced
    obtain ⟨multiple, fault⟩ := (s.st a).faultRecordWord_fields
    obtain ⟨empty, holds⟩ := readSlot_words a s
    refine ⟨fun x mem given => ?result, command, rfl, rfl, rfl, fun k => rfl, rfl, rfl, rfl, pack_one _, pack_one _,
      pack_one _, pack_one _, pack_one _, pack_one _, empty, holds, ?state, ?send, slot, waits, fun x given => ?lock,
      fun given => ?no_lock, ?last, lockLimit, roomLimit, ?outcome, sequence, fun short c => ?lengths, fun c => ?limits,
      (s.st a).confirmHeadWord_overflow, fun given => ?no_entry, fun e rest given short => ?entry,
      fun l => locksOwnedWord_bit a s l, fun slots => ?ring, consumed, produced, fun n => (s.st a).notifyLevels_field n,
      fun short low => ?service, multiple, fun given => ?no_fault, fun f given => ?fault⟩
    case result => exact code.trans (given ▸ ResultCode.codes x mem)
    case state => exact state.trans (by cases (s.st a).state <;> rfl)
    case send => exact send.trans (by cases (s.st a).send <;> rfl)
    case lock => exact lock.trans (by rw [given]; rfl)
    case no_lock => exact lock.trans (by rw [given]; rfl)
    case last => exact last.trans (by cases (s.st a).lastWait <;> rfl)
    case outcome => exact outcome.trans (by cases (s.st a).sendResult.outcome <;> rfl)
    case lengths => exact classWord_field short c
    case limits => exact classWord_field (fun c => Nat.le_of_lt_succ ((s.st a).limit c).isLt) c
    case no_entry =>
      obtain ⟨valid, -, rest⟩ := (s.st a).confirmHeadWord_nil given
      exact ⟨valid, rest⟩
    case entry =>
      obtain ⟨valid, -, length, outcome, channel, sequence⟩ := (s.st a).confirmHeadWord_cons given short
      exact ⟨valid, length, outcome.trans (by cases e.outcome <;> rfl), channel, sequence⟩
    case ring =>
      obtain ⟨count, state⟩ := ringStatus_fields a s slots
      exact ⟨count, state.trans (by cases (s.st a).ring.state <;> rfl)⟩
    case service =>
      obtain ⟨flags, length, level, source⟩ := (s.st a).inServiceWord_fields short low
      refine ⟨fun n => ?_, length, fun e newest => ⟨level.trans ?_, source.trans ?_⟩, fun given => ?_⟩
      · rw [← StationRec.serving_iff, ← flags n]; rfl
      · rw [StationRec.topLevel, newest]
      · rw [newest]; rfl
      · have idle : ∀ n, (s.st a).serving n = false := fun n => by simp [StationRec.serving, given]
        show (s.st a).inServiceWord = 0
        simp [StationRec.inServiceWord, StationRec.topLevel, idle, given, allSources, placed, pack]
    case no_fault =>
      refine ⟨fault.trans (by rw [given]; rfl), ?_⟩
      show ((s.st a).fault.map (·.detail)).getD 0 = 0
      rw [given]; rfl
    case fault =>
      refine ⟨?_, fault.trans ?_⟩
      · show ((s.st a).fault.map (·.detail)).getD 0 = f.detail
        rw [given]; rfl
      · rw [given]; cases f with | mk code detail => cases code <;> rfl
  case global =>
    intro s w words
    obtain rfl : w = fun k => readGlobal k s := funext words
    obtain ⟨states, supervisor⟩ := stationStates_fields s
    refine ⟨fun b => (states b).trans (by cases (s.st b).state <;> rfl), supervisor, storeStatus_fields s,
      roomQueueWord_fields s, fun burst retries => ?engine, fun burst retry response => engineConfig_fields s burst retry response,
      fun range => ?tick, fun c => ?channel, fun l short => ?lock⟩
    case engine =>
      have code : s.engine.code = match s.engine with | .idle => 0 | .busWait _ => 1 | .transfer _ _ => 2 := by
        cases s.engine <;> rfl
      cases delivery : s.engine.delivery with
      | none =>
        obtain ⟨pointer, count, state, rest⟩ := engineStatusWord_idle s delivery burst
        exact ⟨pointer, count, state.trans code, fun d some_one => by simp at some_one, fun _ => rest⟩
      | some d =>
        obtain ⟨pointer, count, state, tries, desc, cls, station⟩ :=
          engineStatusWord_delivery s delivery burst (retries d delivery)
        refine ⟨pointer, count, state.trans code, fun e same => ?_, fun idle => ?_⟩
        · obtain rfl := Option.some.inj same
          exact ⟨tries, desc, cls, station⟩
        · simp [idle, EngineState.delivery] at delivery
    case tick => exact bits_of_placed (by simp only [placed]; omega)
    case channel =>
      obtain ⟨mask, pass, confirm, hold, cls, dest, state⟩ := (s.chan c).routeWord_fields
      have limit := (s.chan c).limit.isLt
      refine ⟨mask, pass, confirm, hold, cls, dest, state.trans (by cases (s.chan c).state <;> rfl), ?_, fun range => ?_⟩
      · exact bits_of_placed (by simp only [placed]; omega)
      · exact bits_of_placed (by simp only [placed]; omega)
    case lock =>
      obtain ⟨length, carrier, owner, code⟩ := (s.lock l).recordWord_fields short
      obtain ⟨count, entries⟩ := lockWaitersWord_fields s l short
      refine ⟨length, carrier.trans ?_, owner.trans ?_, code.trans ?_, count, entries⟩
      all_goals cases (s.lock l).state <;> rfl

end Sys2Proof.Machine
end

section
/-! Ticks and CLK periods: the expiry of due timers, and the way of a running timer to its last tick (O2). -/

namespace Sys2Proof.Machine

-- One proof at a time: many at once take more threads than the check allows.
set_option Elab.async false

/-! ### The expiry of due timers -/

theorem afterAll_responseLimitExpiry (s : State) : afterAll [.responseLimitExpiry] s = expireResponse s := rfl

theorem expireDue_afterAll (s : State) : expireDue s = afterAll ((expiryOrder s).map .roomWaitTimerExpiry ++
    (List.finRange 8).map .waitTimerExpiry ++ [.responseLimitExpiry]) s := by
  rw [afterAll_append, afterAll_append, afterAll_roomWaitTimerExpiry, afterAll_waitTimerExpiry,
    afterAll_responseLimitExpiry, expireDue]

theorem expireDue_noTimerDue (s : State) : (expireDue s).NoTimerDue := by
  refine ⟨fun e mem => (mem_expireDue mem).2, fun a w waits last => ?_, fun d c opened last => ?_⟩
  · rw [(expireDue_wait s a).1] at waits
    by_cases due : waitTimerDue a s = true
    · simp [due] at waits
    · rw [if_neg due] at waits
      exact due ((waitTimerDue_iff a s).mpr ⟨w, waits, last⟩)
  · rcases expireDue_engine s with ⟨same, running⟩ | ⟨-, closed⟩
    · exact running d c (same.symm.trans opened) last
    · exact closed d c opened

/-- Where no timer is due, nothing expires. -/
theorem expireDue_of_noTimerDue {s : State} (none_due : s.NoTimerDue) : expireDue s = s := by
  obtain ⟨room, waits, cycle⟩ := none_due
  have room_waits : ∀ order, expireRoomWaits order s = s := fun order =>
    foldl_keeps (P := fun t => t = s) (fun t a same => by
      rw [same, expireRoomWait, if_neg]
      intro due
      obtain ⟨e, mem, -, last⟩ := (roomTimerDue_iff a s).mp due
      exact room e mem last) order s rfl
  have lock_waits : ∀ order, expireLockWaits order s = s := fun order =>
    foldl_keeps (P := fun t => t = s) (fun t a same => by
      rw [same, expireLockWait, if_neg]
      intro due
      obtain ⟨w, mem, last⟩ := (waitTimerDue_iff a s).mp due
      exact waits a w mem last) order s rfl
  rw [expireDue, room_waits, lock_waits, (expireResponse_engine s).2 cycle]

/-! ### One CLK period -/

theorem tickAll_roomQueue (s : State) :
    (tickAll s).roomQueue = s.roomQueue.map fun e => { e with timer := countTick e.timer } := rfl

theorem tickAll_engine (s : State) : (tickAll s).engine = s.engine.ticked := rfl

/-- The tick counter is not read by the timers. -/
theorem timers_with_tickCount (s : State) (n : Nat) : ({ s with tickCount := n } : State).roomQueue = s.roomQueue ∧
    ({ s with tickCount := n } : State).engine = s.engine := ⟨rfl, rfl⟩

section
variable {s : State}

/-- What a running timer at `n` is at after a CLK period: one lower if the period brings a tick. -/
def State.timerNext (s : State) (n : Nat) : Nat := if s.tickDiv ≤ s.tickCount + 1 then n - 1 else n

theorem clkPeriod_clock (s : State) : (clkPeriod s).tickDiv = s.tickDiv ∧
    (clkPeriod s).tickCount = if s.tickDiv ≤ s.tickCount + 1 then 0 else s.tickCount + 1 := by
  by_cases tick : s.tickDiv ≤ s.tickCount + 1
  · rw [clkPeriod_tick tick, if_pos tick]
    simp [tickAll]
  · rw [clkPeriod_count (Nat.lt_of_not_le tick), if_neg tick]
    simp

/-- The `n`-th tick comes nearer by one period, and is reached by the timer that the period brings to 0. -/
theorem State.periodsTo_next {n : Nat} (low : s.tickCount < s.tickDiv) (running : 1 ≤ n) :
    (s.timerNext n = 0 ↔ s.periodsTo n = 1) ∧
      (s.timerNext n ≠ 0 → (clkPeriod s).periodsTo (s.timerNext n) = s.periodsTo n - 1) := by
  obtain ⟨div, count⟩ := clkPeriod_clock s
  obtain ⟨k, rfl⟩ := Nat.exists_eq_add_of_le' running
  rw [State.periodsTo, State.periodsTo, div, count, State.timerNext, Nat.add_sub_cancel]
  by_cases tick : s.tickDiv ≤ s.tickCount + 1
  · simp only [if_pos tick]
    cases k with
    | zero => exact ⟨by omega, fun h => absurd rfl h⟩
    | succ k =>
      rw [Nat.add_sub_cancel, Nat.add_mul, Nat.one_mul]
      have := Nat.zero_le (k * s.tickDiv)
      omega
  · simp only [if_neg tick, Nat.add_sub_cancel]
    have := Nat.zero_le (k * s.tickDiv)
    omega

theorem State.one_lt_periodsTo_iff {n : Nat} (low : s.tickCount < s.tickDiv) (running : 1 ≤ n) :
    1 < s.periodsTo n ↔ s.timerNext n ≠ 0 := by
  rw [ne_eq, (State.periodsTo_next low running).1, State.periodsTo]
  omega

theorem clkPeriod_noTimerDue (s : State) : (clkPeriod s).NoTimerDue := by
  by_cases tick : s.tickDiv ≤ s.tickCount + 1
  · rw [clkPeriod_tick tick]
    exact expireDue_noTimerDue _
  · rw [clkPeriod_count (Nat.lt_of_not_le tick)]
    exact (tickCount_reads _ _).2.mpr (expireDue_noTimerDue s)

/-- A lock wait with a running timer is there before a tick as it was. -/
theorem expireDue_wait_of_running {a : StationId} {w : LockWait} (waits : (s.st a).wait = some w)
    (running : w.timer ≠ some 0) : ((expireDue s).st a).wait = some w := by
  rw [(expireDue_wait s a).1, if_neg, waits]
  intro due
  obtain ⟨x, mem, last⟩ := (waitTimerDue_iff a s).mp due
  obtain rfl : w = x := by simpa [waits] using mem
  exact running last

theorem tickAll_wait {a : StationId} {w : LockWait} (waits : (s.st a).wait = some w) :
    ((tickAll s).st a).wait = some { w with timer := countTick w.timer } := by
  simp [tickAll, State.st, StationRec.ticked] at waits ⊢
  simp [waits]

/-- A lock wait after a CLK period: its timer has counted a tick that came, and at 0 it has ended TIMEOUT. -/
theorem clkPeriod_wait {a : StationId} {w : LockWait} {n : Nat} (waits : (s.st a).wait = some w) (timer : w.timer = some n)
    (running : 1 ≤ n) :
    (s.timerNext n = 0 → ((clkPeriod s).st a).wait = none ∧ ((clkPeriod s).st a).lastWait = .timeout) ∧
    (s.timerNext n ≠ 0 → ((clkPeriod s).st a).wait = some { w with timer := some (s.timerNext n) }) := by
  have stays := expireDue_wait_of_running waits (by rw [timer]; simp; omega)
  unfold State.timerNext
  by_cases tick : s.tickDiv ≤ s.tickCount + 1
  · rw [if_pos tick, clkPeriod_tick tick]
    have counted := tickAll_wait stays
    rw [timer, countTick, Option.map_some] at counted
    refine ⟨fun last => ?_, fun more => expireDue_wait_of_running counted (by simpa using more)⟩
    have due : waitTimerDue a (tickAll (expireDue s)) = true :=
      (waitTimerDue_iff a _).mpr ⟨_, counted, by rw [last]⟩
    rw [(expireDue_wait _ a).1, (expireDue_wait _ a).2, if_pos due, if_pos due]
    exact ⟨rfl, rfl⟩
  · rw [if_neg tick, clkPeriod_count (Nat.lt_of_not_le tick)]
    refine ⟨fun last => by omega, fun _ => ?_⟩
    rw [(tickCount_reads _ _).1, stays, ← timer]

/-- An entry of the room queue after a CLK period was there before, with a timer that has counted a tick that came. -/
theorem clkPeriod_roomQueue {e : RoomEntry} {m : Nat} (mem : e ∈ (clkPeriod s).roomQueue) (timer : e.timer = some m) :
    ∃ n, { e with timer := some n } ∈ s.roomQueue ∧ 1 ≤ n ∧ m = s.timerNext n ∧ m ≠ 0 := by
  unfold State.timerNext
  by_cases tick : s.tickDiv ≤ s.tickCount + 1
  · rw [clkPeriod_tick tick] at mem
    obtain ⟨counted, running⟩ := mem_expireDue mem
    rw [tickAll_roomQueue] at counted
    obtain ⟨x, before, rfl⟩ := List.mem_map.mp counted
    obtain ⟨inside, not_last⟩ := mem_expireDue before
    obtain ⟨n, own, rfl⟩ := Option.map_eq_some_iff.mp timer
    have same : ({ x with timer := some n } : RoomEntry) = x := by rw [← own]
    refine ⟨n, same.symm ▸ inside, ?_, by rw [if_pos tick], fun last => running (timer.trans (congrArg some last))⟩
    rw [own] at not_last
    simp only [ne_eq, Option.some.injEq] at not_last
    omega
  · rw [clkPeriod_count (Nat.lt_of_not_le tick), (timers_with_tickCount _ _).1] at mem
    obtain ⟨inside, running⟩ := mem_expireDue mem
    have more : m ≠ 0 := fun last => running (by rw [timer, last])
    have same : ({ e with timer := some m } : RoomEntry) = e := by rw [← timer]
    exact ⟨m, same.symm ▸ inside, by omega, by rw [if_neg tick], more⟩

theorem bown_of_not_transfer (closed : ∀ d c, s.engine ≠ .transfer d c) : s.bown = false := by
  unfold State.bown
  split
  · rename_i d c opened
    exact absurd opened (closed d c)
  · rfl

theorem expireDue_cycle_of_running {d : Delivery} {c : Cycle} (opened : s.engine = .transfer d c) (running : c.timer ≠ 0) :
    (expireDue s).engine = .transfer d c := by
  rcases expireDue_engine s with ⟨same, -⟩ | ⟨⟨d', c', also, last⟩, -⟩
  · exact same.trans opened
  · obtain ⟨-, rfl⟩ := EngineState.transfer.inj (opened.symm.trans also)
    exact absurd last running

/-- The open cycle after a CLK period: its timer has counted a tick that came, and at 0 the cycle is ended. -/
theorem clkPeriod_cycle {d : Delivery} {c : Cycle} (opened : s.engine = .transfer d c) (running : 1 ≤ c.timer) :
    (s.timerNext c.timer = 0 → (clkPeriod s).bown = false) ∧
    (s.timerNext c.timer ≠ 0 → (clkPeriod s).engine = .transfer d { c with timer := s.timerNext c.timer }) := by
  have stays := expireDue_cycle_of_running opened (by omega)
  unfold State.timerNext
  by_cases tick : s.tickDiv ≤ s.tickCount + 1
  · rw [if_pos tick, clkPeriod_tick tick]
    have counted : (tickAll (expireDue s)).engine = .transfer d { c with timer := c.timer - 1 } := by
      rw [tickAll_engine, stays, EngineState.ticked]
    refine ⟨fun last => bown_of_not_transfer ?_, fun more => expireDue_cycle_of_running counted more⟩
    rcases expireDue_engine (tickAll (expireDue s)) with ⟨-, not_last⟩ | ⟨-, closed⟩
    · exact absurd last (not_last _ _ counted)
    · exact closed
  · rw [if_neg tick, clkPeriod_count (Nat.lt_of_not_le tick), (timers_with_tickCount _ _).2]
    exact ⟨fun last => by omega, fun _ => stays⟩
end

/-- Settles O2: TICK counts where `expireDue` has left no timer due, and a CLK period takes each timer to its next value. -/
theorem clkPeriodsAndTicks : Obligations.ClkPeriodsAndTicks := by
  refine ⟨fun s => ⟨⟨_, ?expiries, expireDue_afterAll s⟩, expireDue_noTimerDue s, expireDue_of_noTimerDue, ?first⟩,
    fun s none_due => ?tick, fun s waiting => ?period⟩
  case expiries =>
    intro c mem
    simp only [List.mem_append, List.mem_map, List.mem_singleton] at mem
    rcases mem with (⟨a, -, rfl⟩ | ⟨a, -, rfl⟩) | rfl
    · exact .inr ⟨a, .inl rfl⟩
    · exact .inr ⟨a, .inr rfl⟩
    · exact .inl rfl
  case first => rw [exec_tick, exec_tick, expireDue_of_noTimerDue (expireDue_noTimerDue s)]
  case tick =>
    refine ⟨tickAll s, by rw [exec_tick, expireDue_of_noTimerDue none_due], rfl, fun a => ?_, rfl, fun d c opened => ?_,
      fun free => ?_⟩
    · simp only [tickAll, State.st, entry_mapTable]
      rfl
    · simp [tickAll, opened, EngineState.ticked]
    · cases engine : s.engine with
      | transfer d c => simp [State.bown, engine] at free
      | _ => simp [tickAll, engine, EngineState.ticked]
  case period =>
    have steps : step s = .next (clkPeriod s) := by rw [step, waiting]
    refine ⟨clkPeriod s, steps, clkPeriod_noTimerDue s, clkPeriod_count, fun tick u ticked => ?_, fun low =>
      ⟨fun a w n waits timer running => ⟨fun now => ?_, fun later => ?_⟩, fun e mem m timer => ?_,
      fun d c opened running => ⟨fun now => ?_, fun later => ?_⟩⟩⟩
    · rw [clkPeriod_tick tick, Host.Outcome.next.inj ((exec_tick s).symm.trans ticked)]
    · exact (clkPeriod_wait waits timer running).1 ((State.periodsTo_next low running).1.mpr now)
    · have more := (State.one_lt_periodsTo_iff low running).mp later
      exact ⟨_, (clkPeriod_wait waits timer running).2 more, (State.periodsTo_next low running).2 more⟩
    · obtain ⟨n, inside, running, rfl, more⟩ := clkPeriod_roomQueue mem timer
      exact ⟨n, inside, running, (State.periodsTo_next low running).2 more, (State.one_lt_periodsTo_iff low running).mpr more⟩
    · exact (clkPeriod_cycle opened running).1 ((State.periodsTo_next low running).1.mpr now)
    · have more := (State.one_lt_periodsTo_iff low running).mp later
      exact ⟨_, (clkPeriod_cycle opened running).2 more, (State.periodsTo_next low running).2 more⟩

end Sys2Proof.Machine
end

section
/-! The completion of a delivery (O43): what its message's end leaves at each station, and what the burst does next. -/

namespace Sys2Proof.Machine

-- One proof at a time: many at once take more threads than the check allows.
set_option Elab.async false

/-! ### Pending flags stay while sources are set -/

section
variable {i : Nat}

/-- Setting sources clears no pending flag. -/
theorem StationRec.raised_flag {r : StationRec} (n : SourceId) (set : r.pendingFlags.getLsbD i = true) :
    (r.raised n).pendingFlags.getLsbD i = true := by
  unfold StationRec.raised
  split
  · simp [set]
  · exact set

theorem StationRec.raised_own_flag {r : StationRec} (online : r.state = .online) (n : SourceId) :
    (r.raised n).pendingFlags.getLsbD n.val = true := by
  simp [StationRec.raised, online]

theorem StationRec.ringOff_flag {r : StationRec} (set : r.pendingFlags.getLsbD i = true) :
    r.ringOff.pendingFlags.getLsbD i = true := by
  unfold StationRec.ringOff
  dsimp only
  split
  · simp [set]
  · exact set

variable {s : State} {b : StationId}

theorem setSource_flag (a : StationId) (n : SourceId) (set : (s.st b).pendingFlags.getLsbD i = true) :
    ((setSource a n s).st b).pendingFlags.getLsbD i = true := by
  rw [setSource_eq]
  by_cases own : b = a
  · subst own; simpa using StationRec.raised_flag n set
  · simpa [own] using set

theorem settleRing_flag (a : StationId) (set : (s.st b).pendingFlags.getLsbD i = true) :
    ((settleRing a s).st b).pendingFlags.getLsbD i = true := by
  by_cases own : b = a
  · subst own
    unfold settleRing
    split
    · simpa using set
    · simpa [disableRing_eq] using StationRec.ringOff_flag set
    · exact set
  · simpa [own] using set

theorem confirmEnd_flag (o : EndOutcome) (m : Message) (set : (s.st b).pendingFlags.getLsbD i = true) :
    ((confirmEnd o m s).st b).pendingFlags.getLsbD i = true := by
  unfold confirmEnd
  split
  · unfold offerConfirmation
    split
    · refine setSource_flag _ _ ?_
      by_cases own : b = m.source
      · subst own; simpa using set
      · simpa [own] using set
    · refine setSource_flag _ _ ?_
      by_cases own : b = m.source
      · subst own; simpa using set
      · simpa [own] using set
  · exact set
end

/-! ### The lock and the confirmation -/

section
variable {m : Message} {s : State}

theorem disposeLock_delivered_of_none (free : m.carriedLock = none) : disposeLock .delivered m s = s := by
  simp [disposeLock, free]

theorem disposeLock_delivered_of_some {l : LockId} (carries : m.carriedLock = some l) :
    disposeLock .delivered m s = passLock l m.dest s := by
  simp [disposeLock, carries]

/-- What a DELIVERED end does to the wait of a station: only that of the destination on the carried lock ends. -/
theorem disposeLock_delivered_wait (b : StationId)
    (kept : b ≠ m.dest ∨ (s.st b).wait = none ∨ (s.st b).wait.map (·.lock) ≠ m.carriedLock) :
    (disposeLock .delivered m s).st b = s.st b := by
  cases carries : m.carriedLock with
  | none => rw [disposeLock_delivered_of_none carries]
  | some l =>
    rw [disposeLock_delivered_of_some carries]
    by_cases own : b = m.dest
    · subst own
      have away : (s.st m.dest).wait.map (·.lock) ≠ some l := by
        rcases kept with ne | none_waits | other
        · exact absurd rfl ne
        · simp [none_waits]
        · rwa [carries] at other
      rw [passLock_of_not_waiting away]
      rfl
    · simp [own]

theorem disposeLock_delivered_granted {l : LockId} (carries : m.carriedLock = some l)
    (waits : (s.st m.dest).wait.map (·.lock) = some l) (online : (s.st m.dest).state = .online) :
    ((disposeLock .delivered m s).st m.dest).wait = none ∧
    ((disposeLock .delivered m s).st m.dest).lastWait = .granted ∧
    ((disposeLock .delivered m s).st m.dest).pendingFlags.getLsbD 4 = true := by
  rw [disposeLock_delivered_of_some carries, passLock_of_waiting waits]
  simp [StationRec.raised, online]

theorem disposeLock_delivered_lock (l : LockId) : (disposeLock .delivered m s).lock l =
    if m.carriedLock = some l then
      { state := .held m.dest
        waiters := if (s.st m.dest).wait.map (·.lock) = some l then (s.lock l).waiters.erase m.dest
                   else (s.lock l).waiters }
    else s.lock l := by
  cases carries : m.carriedLock with
  | none => rw [disposeLock_delivered_of_none carries]; simp
  | some k =>
    rw [disposeLock_delivered_of_some carries]
    by_cases own : k = l
    · subst own
      rw [if_pos rfl]
      by_cases waits : (s.st m.dest).wait.map (·.lock) = some k
      · rw [passLock_of_waiting waits, if_pos waits]; simp
      · rw [passLock_of_not_waiting waits, if_neg waits]; simp
    · rw [if_neg (by simpa using own), passLock_lock_other (Ne.symm own)]

/-- What a confirmation leaves at the source: an entry with CONFIRMED, or the overflow with its fault. -/
theorem confirmEnd_source (o : EndOutcome) (yes : m.confirm = true) (online : (s.st m.source).state = .online) :
    ((s.st m.source).confirms.length < 16 →
      ((confirmEnd o m s).st m.source).pendingFlags.getLsbD 6 = true ∧
      ((confirmEnd o m s).st m.source).confirms = (s.st m.source).confirms ++
        [{ channel := m.channel, sequence := m.sequence, outcome := o }] ∧
      ((confirmEnd o m s).st m.source).confirmOverflow = (s.st m.source).confirmOverflow ∧
      ((confirmEnd o m s).st m.source).fault = (s.st m.source).fault) ∧
    (16 ≤ (s.st m.source).confirms.length →
      ((confirmEnd o m s).st m.source).pendingFlags.getLsbD 7 = true ∧
      ((confirmEnd o m s).st m.source).confirms = (s.st m.source).confirms ∧
      ((confirmEnd o m s).st m.source).confirmOverflow = true ∧
      ((confirmEnd o m s).st m.source).fault =
        some { code := .confirmOverflow, detail := BitVec.ofNat 32 m.channel.val }) := by
  obtain ⟨-, -, offer⟩ := messageEndsInItsFourSteps
  obtain ⟨-, offered, dropped⟩ := offer o m s
  refine ⟨fun room => ?_, fun full => ?_⟩
  · rw [offered yes online room]
    simp [StationRec.raised, online]
  · rw [dropped yes online full]
    simp [StationRec.faulted, StationRec.raised, online]

theorem confirmEnd_other (o : EndOutcome) {b : StationId} (other : b ≠ m.source) : (confirmEnd o m s).st b = s.st b := by
  unfold confirmEnd
  split
  · unfold offerConfirmation
    split <;> simp [other]
  · rfl
end

end Sys2Proof.Machine
end

section
/-! The completion of a delivery, assembled (O43). -/

namespace Sys2Proof.Machine

-- One proof at a time: many at once take more threads than the check allows.
set_option Elab.async false

/-! ### The state before the burst goes on -/

/-- The state after the end of the delivered message, ARRIVEc and the ring, before the burst goes on (R132). -/
def State.delivered (s : State) (d : Delivery) : State :=
  settleRing d.station (setSource d.station (srcArrive d.cls) (endMessage .delivered d.desc (advanceRing d s)))

/-- The state after steps 1 and 2 of the end of the delivered message `m`. -/
def State.confirmed (s : State) (d : Delivery) (m : Message) : State :=
  confirmEnd .delivered m (disposeLock .delivered m (advanceRing d s))

theorem completeDelivery_eq (d : Delivery) (s : State) : completeDelivery d s = advanceBurst (s.delivered d) := rfl

section
variable {d : Delivery} {m : Message} {s : State}

theorem delivered_eq (hm : s.msg d.desc = some m) : s.delivered d =
    settleRing d.station (setSource d.station (srcArrive d.cls) (examine ((s.confirmed d m).freed d.desc m))) := by
  have hm' : (advanceRing d s).msg d.desc = some m := by simpa using hm
  rw [State.delivered, endMessage_of_msg hm']
  rfl

/-- Settings and registers stay at every station. -/
theorem delivered_settings (b : StationId) :
    ((s.delivered d).st b).state = (s.st b).state ∧ ((s.delivered d).st b).limits = (s.st b).limits ∧
      ((s.delivered d).st b).readSlot = (s.st b).readSlot ∧ ((s.delivered d).st b).staging = (s.st b).staging ∧
      ((s.delivered d).st b).sendTag = (s.st b).sendTag ∧ ((s.delivered d).st b).sendResult = (s.st b).sendResult ∧
      ((s.delivered d).st b).result = (s.st b).result ∧ ((s.delivered d).st b).supOperand = (s.st b).supOperand ∧
      ((s.delivered d).st b).seqCounter = (s.st b).seqCounter ∧
      ((s.delivered d).st b).roomWaitLimit = (s.st b).roomWaitLimit ∧
      ((s.delivered d).st b).lockWaitLimit = (s.st b).lockWaitLimit ∧ ((s.delivered d).st b).enables = (s.st b).enables ∧
      ((s.delivered d).st b).disarm = (s.st b).disarm ∧ ((s.delivered d).st b).levels = (s.st b).levels ∧
      ((s.delivered d).st b).vectorBase = (s.st b).vectorBase ∧ ((s.delivered d).st b).inService = (s.st b).inService := by
  simp [State.delivered]

theorem delivered_frame (s : State) (d : Delivery) : (s.delivered d).supervisor = s.supervisor ∧
    (s.delivered d).cellStore = s.cellStore ∧ (s.delivered d).answer = s.answer ∧ (s.delivered d).gap = s.gap ∧
    (s.delivered d).rrPointer = s.rrPointer ∧ (s.delivered d).burst = s.burst ∧
    (s.delivered d).burstLimit = s.burstLimit ∧ (s.delivered d).responseLimit = s.responseLimit := by
  simp [State.delivered]

theorem delivered_queue {rest : List DescId} (head : (s.st d.station).queue d.cls = d.desc :: rest) :
    ((s.delivered d).st d.station).queue d.cls = rest ∧
    ∀ e, e ≠ d.cls → ((s.delivered d).st d.station).queue e = (s.st d.station).queue e := by
  have queues : ((s.delivered d).st d.station).queues = put (s.st d.station).queues d.cls rest := by
    simp [State.delivered, advanceRing, StationRec.setQueue, head]
  simp only [StationRec.queue, queues]
  exact ⟨entry_put_same _ _ _, fun e other => entry_put_ne _ _ other⟩

theorem delivered_elsewhere {b : StationId} (other : b ≠ d.station) :
    ((s.delivered d).st b).ring = (s.st b).ring ∧ ((s.delivered d).st b).queues = (s.st b).queues := by
  simp [State.delivered, advanceRing, other]

/-- The ring of the delivery's station after its delivery (R132, R122). -/
theorem delivered_ring (rings : s.RingsSound) (delivery : s.engine.delivery = some d) :
    ((s.delivered d).st d.station).ring = { (s.st d.station).ring with
      produced := (s.st d.station).ring.produced + 1
      state := if (s.st d.station).ring.state = .disabling then .disabled
        else if (s.st d.station).ring.fill + 1 = (s.st d.station).ring.latchedSlots then .stalled else .active } := by
  obtain ⟨-, state, room, slots⟩ := rings.ofDelivery delivery
  have fill := Ring.fill_advanced slots room
  simp only [State.delivered, settleRing_ring, setSource_stations, endMessage_stations, advanceRing_ring]
  rw [← fill]
  rcases state with active | disabling
  · simp [Ring.settled, Ring.advanced, Ring.byFill, active]
  · simp [Ring.settled, Ring.advanced, disabling]

theorem delivered_waits (hm : s.msg d.desc = some m) (b : StationId) :
    ((s.delivered d).st b).wait = ((disposeLock .delivered m (advanceRing d s)).st b).wait ∧
    ((s.delivered d).st b).lastWait = ((disposeLock .delivered m (advanceRing d s)).st b).lastWait := by
  simp [delivered_eq hm, State.confirmed]

theorem delivered_lock (hm : s.msg d.desc = some m) (l : LockId) :
    (s.delivered d).lock l = (disposeLock .delivered m (advanceRing d s)).lock l := by
  simp [delivered_eq hm, State.confirmed]

theorem delivered_confirms (hm : s.msg d.desc = some m) (b : StationId) :
    ((s.delivered d).st b).confirms = ((s.confirmed d m).st b).confirms ∧
    ((s.delivered d).st b).confirmOverflow = ((s.confirmed d m).st b).confirmOverflow ∧
    ((s.delivered d).st b).fault = ((s.confirmed d m).st b).fault ∧
    ((s.delivered d).st b).multiple = ((s.confirmed d m).st b).multiple := by
  simp [delivered_eq hm]

/-- A flag set by the end of the message is still set. -/
theorem delivered_flag (hm : s.msg d.desc = some m) {b : StationId} {i : Nat}
    (set : ((s.confirmed d m).st b).pendingFlags.getLsbD i = true) :
    ((s.delivered d).st b).pendingFlags.getLsbD i = true := by
  rw [delivered_eq hm]
  exact settleRing_flag _ (setSource_flag _ _ (by simpa using set))

theorem delivered_arrive (online : (s.st d.station).state = .online) :
    ((s.delivered d).st d.station).pendingFlags.getLsbD d.cls.val = true := by
  refine settleRing_flag _ ?_
  rw [setSource_eq, State.st_modSt_same]
  exact StationRec.raised_own_flag (by simpa using online) (srcArrive d.cls)

theorem delivered_counts (hm : s.msg d.desc = some m) :
    (s.delivered d).chan m.channel = { s.chan m.channel with count := (s.chan m.channel).count - 1 } ∧
    ∀ e, e ≠ m.channel → (s.delivered d).chan e = s.chan e := by
  have table : ∀ e, (s.delivered d).chan e = (releaseCount m.channel (s.confirmed d m)).chan e := fun e => by
    simp [delivered_eq hm, State.freed_chan]
  refine ⟨?_, fun e other => ?_⟩
  · rw [table]; simp [releaseCount, State.confirmed]
  · rw [table]; simp [releaseCount, State.confirmed, other]

theorem delivered_freed (hm : s.msg d.desc = some m) (none_waits : s.roomQueue = []) :
    (s.delivered d).freeDescs = s.freeDescs ++ [d.desc] ∧ (s.delivered d).freeCells = s.freeCells ++ m.cells ∧
    (s.delivered d).msg d.desc = none := by
  have empty : ((s.confirmed d m).freed d.desc m).roomQueue = [] := by simpa [State.confirmed] using none_waits
  rw [delivered_eq hm, (roomQueueExamination _).1 empty]
  simp [State.confirmed]
end

end Sys2Proof.Machine
end

section
/-! What the burst does behind a delivery (R133), and O43. -/

namespace Sys2Proof.Machine

-- One proof at a time: many at once take more threads than the check allows.
set_option Elab.async false

section
variable {s : State}

theorem releaseToIdle_released (s : State) : (releaseToIdle s).bown = false ∧ (releaseToIdle s).gap = true := by
  unfold releaseToIdle startIfIdle
  split <;> simp [State.bown]

/-- With no station to serve, the bus is released and the engine stays IDLE. -/
theorem releaseToIdle_of_none (none_next : s.nextDelivery = none) :
    releaseToIdle s = { s with engine := .idle, gap := true } := by
  have none_next' : ({ s with engine := .idle, gap := true } : State).nextDelivery = none := none_next
  rw [releaseToIdle, startIfIdle_of_none none_next']

/-- The state with the burst count advanced. -/
def State.burstCounted (s : State) : State := { s with burst := s.burst + 1 }

theorem advanceBurst_of_limit (limit : s.burstLimit ≤ s.burst + 1) : advanceBurst s = releaseToIdle s.burstCounted :=
  if_neg (Nat.not_lt.mpr limit)

theorem advanceBurst_of_none (below : s.burst + 1 < s.burstLimit) (none_next : s.nextDelivery = none) :
    advanceBurst s = { s.burstCounted with engine := .idle, gap := true } := by
  have none_next' : s.burstCounted.nextDelivery = none := none_next
  rw [advanceBurst, if_pos below, ← State.burstCounted, continueBurst, none_next']
  exact releaseToIdle_of_none none_next'

theorem advanceBurst_of_next {d : Delivery} (below : s.burst + 1 < s.burstLimit) (next : s.nextDelivery = some d) :
    advanceBurst s = issueWrite d (adoptDelivery d s.burstCounted) := by
  have next' : s.burstCounted.nextDelivery = some d := next
  rw [advanceBurst, if_pos below, ← State.burstCounted, continueBurst, next']

theorem advanceBurst_burst (s : State) : (advanceBurst s).burst = s.burst + 1 := by
  unfold advanceBurst
  split <;> simp

theorem advanceBurst_msg_none {x : DescId} (free : s.msg x = none) : (advanceBurst s).msg x = none := by
  have channel := advanceBurst_channelOf s x
  simpa [State.channelOf, State.readMsg, free] using channel

theorem advanceBurst_servable (a : StationId) : (advanceBurst s).Servable a ↔ s.Servable a := by
  simp [State.Servable]

/-- Below the limit the bus is kept for the first eligible station, and header word 0 of its delivery is issued. -/
theorem advanceBurst_next {k : Nat} {a : StationId} {e : ClassId} {x : DescId} {more : List DescId} {n : Message}
    (below : s.burst + 1 < s.burstLimit) (low : 1 ≤ k) (high : k ≤ 8) (ha : a.val = (s.rrPointer.val + k) % 8)
    (servable : s.Servable a)
    (first : ∀ (j : Nat) (b : StationId), 1 ≤ j → j < k → b.val = (s.rrPointer.val + j) % 8 → ¬ s.Servable b)
    (urgent : ∀ e' < e, (s.st a).queue e' = []) (head : (s.st a).queue e = x :: more)
    (hn : (advanceBurst s).msg x = some n) :
    n.state = .delivering ∧ (advanceBurst s).rrPointer = a ∧ (advanceBurst s).gap = s.gap ∧
    (advanceBurst s).engine = .transfer
      { station := a, cls := e, desc := x, slot := (s.st a).ring.produced.toNat % (s.st a).ring.latchedSlots
        header0 := headerWord0 n, header1 := headerWord1 n, next := .header0, retries := 0 }
      { addr := (s.st a).ring.latchedBase +
          BitVec.ofNat 32 (264 * ((s.st a).ring.produced.toNat % (s.st a).ring.latchedSlots))
        data := headerWord0 n, timer := s.responseLimit } := by
  cases hx : s.msg x with
  | none => simp [advanceBurst_msg_none hx] at hn
  | some m =>
    have next := State.nextDelivery_of_first low high ha servable first urgent head hx
    rw [advanceBurst_of_next below next] at hn ⊢
    have hx' : s.burstCounted.msg x = some m := hx
    have named : (s.deliveryFor a e x m).desc = x := rfl
    have adopted : adoptDelivery (s.deliveryFor a e x m) s.burstCounted =
        { s.burstCounted.setMsg x (some { m with state := .delivering }) with rrPointer := a } := by
      rw [adoptDelivery, named, setMessageState_of_msg hx']
      rfl
    rw [adopted] at hn ⊢
    obtain rfl : { m with state := MessageState.delivering } = n := by
      simpa [issueWrite, State.msg, State.setMsg] using hn
    refine ⟨rfl, rfl, rfl, ?_⟩
    rw [issueWrite, Nat.mul_comm 264]
    rfl
end

/-- Settles O43: clause by clause, from what the end of the message leaves and what the burst does next. -/
theorem deliveryCompletion : Obligations.DeliveryCompletion := by
  intro d c m rest s opened index hm dest head rings
  have delivery : s.engine.delivery = some d := by rw [opened]; rfl
  obtain ⟨online, -⟩ := rings.ofDelivery delivery
  have completes : exec .respComplete s = .next (advanceBurst (s.delivered d)) := by
    show execRespComplete s = _
    simp only [execRespComplete, opened, index, nextWrite, completeDelivery_eq]
  obtain ⟨supervisor, cells, answer, gap, pointer, burst, limit, response⟩ := delivered_frame s d
  obtain ⟨left, kept⟩ := delivered_queue head
  obtain ⟨own_count, counts⟩ := delivered_counts hm
  have dest_state : ((advanceRing d s).st m.dest).state = .online := by simpa [dest] using online
  have source_state : ((disposeLock .delivered m (advanceRing d s)).st m.source).state = (s.st m.source).state := by simp
  have source_confirms : ((disposeLock .delivered m (advanceRing d s)).st m.source).confirms = (s.st m.source).confirms ∧
      ((disposeLock .delivered m (advanceRing d s)).st m.source).confirmOverflow = (s.st m.source).confirmOverflow ∧
      ((disposeLock .delivered m (advanceRing d s)).st m.source).fault = (s.st m.source).fault := by simp
  have waits : ∀ b, ((advanceRing d s).st b).wait = (s.st b).wait := fun b => by simp
  have lock := fun l => (delivered_lock hm l).trans (disposeLock_delivered_lock (s := advanceRing d s) l)
  simp only [waits, advanceRing_reads, dest] at lock
  refine ⟨_, completes, ?_⟩
  simp only [advanceBurst_reads, advanceBurst_frame, advanceBurst_burst, advanceBurst_servable, burst]
  refine ⟨left, kept, delivered_ring rings delivery, delivered_arrive online, fun l carries => ?held, fun none_waits => ?freed,
    own_count, counts, trivial, fun reached => ?limit, fun below none_servable => ?idle,
    fun below k a e x more n g low high ha servable first urgent queue hn ring => ?next, fun yes present => ?confirmed,
    fun no => ?unconfirmed, fun l carries => ⟨fun waiting => ?granted, fun away => ?ungranted⟩, fun away => ?wait,
    fun l other => ?lock, fun b => delivered_settings b, fun b other => ?elsewhere, fun b other => ?others,
    supervisor, cells, answer⟩
  case held =>
    rw [lock, if_pos carries]
  case freed =>
    obtain ⟨descs, free, gone⟩ := delivered_freed hm none_waits
    exact ⟨descs, free, advanceBurst_msg_none gone⟩
  case limit =>
    rw [advanceBurst_of_limit (by rw [burst, limit]; exact reached)]
    exact releaseToIdle_released _
  case idle =>
    rw [advanceBurst_of_none (by rw [burst, limit]; exact below) (State.nextDelivery_eq_none none_servable)]
    exact ⟨rfl, rfl⟩
  case next =>
    subst ring
    rw [← gap, ← response]
    exact advanceBurst_next (by rw [burst, limit]; exact below) low high (by rw [pointer]; exact ha) servable
      (by rw [pointer]; exact first) urgent queue hn
  case confirmed =>
    obtain ⟨confirms, overflow, fault, -⟩ := delivered_confirms hm m.source
    obtain ⟨old_confirms, old_overflow, old_fault⟩ := source_confirms
    obtain ⟨offered, dropped⟩ := confirmEnd_source (s := disposeLock .delivered m (advanceRing d s)) .delivered yes
      (source_state.trans present)
    rw [confirms, overflow, fault]
    rw [old_confirms, old_overflow, old_fault] at offered
    rw [old_confirms] at dropped
    refine ⟨fun room => ?_, fun full => ?_⟩
    · obtain ⟨flag, list⟩ := offered room
      exact ⟨delivered_flag hm flag, list⟩
    · obtain ⟨flag, list⟩ := dropped full
      exact ⟨delivered_flag hm flag, list⟩
  case unconfirmed =>
    obtain ⟨confirms, overflow, fault, multiple⟩ := delivered_confirms hm m.source
    have same : s.confirmed d m = disposeLock .delivered m (advanceRing d s) :=
      confirmEnd_of_no (by rwa [source_state])
    rw [confirms, overflow, fault, multiple, same]
    simp
  case granted =>
    have waiting' : ((advanceRing d s).st m.dest).wait.map (·.lock) = some l := by rw [waits, dest]; exact waiting
    obtain ⟨ended, outcome, flag⟩ := disposeLock_delivered_granted carries waiting' dest_state
    rw [dest] at ended outcome flag
    obtain ⟨wait, last⟩ := delivered_waits hm d.station
    rw [lock, if_pos carries, wait, last]
    exact ⟨if_pos waiting, ended, outcome, delivered_flag hm (confirmEnd_flag _ _ flag)⟩
  case ungranted =>
    rw [lock, if_pos carries]
    exact if_neg away
  case wait =>
    obtain ⟨wait, last⟩ := delivered_waits hm d.station
    rw [wait, last, disposeLock_delivered_wait d.station (.inr (by rwa [waits]))]
    simp
  case lock => rw [lock, if_neg other]
  case elsewhere =>
    obtain ⟨ring, queues⟩ := delivered_elsewhere (s := s) other
    obtain ⟨wait, last⟩ := delivered_waits hm b
    refine ⟨ring, queues, ?_, ?_⟩
    · rw [wait, disposeLock_delivered_wait b (.inl (by rwa [dest]))]; simp
    · rw [last, disposeLock_delivered_wait b (.inl (by rwa [dest]))]; simp
  case others =>
    obtain ⟨confirms, overflow, fault, multiple⟩ := delivered_confirms hm b
    rw [confirms, overflow, fault, multiple, State.confirmed, confirmEnd_other _ other]
    simp

end Sys2Proof.Machine
end

section
/-! RETIRE, step by step: the room wait, the lock wait and the delivery of the station that leaves, and RETIRE during a copy
(O14). -/

namespace Sys2Proof.Machine

-- One proof at a time: many at once take more threads than the check allows.
set_option Elab.async false

/-! ### The steps of the entry to QUIESCING -/

section
variable {a : StationId} {s : State}

/-- Where no entry is named, none is removed. -/
theorem removeWaiting_of_none {p : RoomEntry → Bool} (none_meets : ∀ e ∈ s.roomQueue, p e = false) (o : SendOutcome)
    (sent : Bool) : removeWaiting p o sent s = s := by
  have gone : s.roomQueue.filter p = [] := List.filter_eq_nil_iff.mpr fun e mem => by simp [none_meets e mem]
  have left : (s.roomQueue.filter fun e => !p e) = s.roomQueue :=
    List.filter_eq_self.mpr fun e mem => by simp [none_meets e mem]
  have head : ¬ (s.roomQueue.head?.any p = true) := fun any => by
    obtain ⟨e, first, meets⟩ := (Option.any_eq_true _ _).mp any
    simp [none_meets e (List.mem_of_mem_head? first)] at meets
  rw [removeWaiting, gone, left]
  exact if_neg head

/-- The record of a station whose lock wait ends, where it has one. -/
theorem leaveWait_own (a : StationId) (o : WaitOutcome) (s : State) : (leaveWait a o s).st a =
    { s.st a with wait := none, lastWait := if (s.st a).wait.isSome then o else (s.st a).lastWait } := by
  cases waits : (s.st a).wait with
  | none =>
    rw [leaveWait, waits]
    generalize s.st a = r at waits
    cases r
    simp_all
  | some w => rw [leaveWait_of_wait waits]; simp

theorem quiesce_of_copying (copies : (s.st a).send.isCopying = true) : quiesce a s = s :=
  if_neg fun ⟨_, still, _⟩ => by simp [copies] at still

/-- A station that has no entry in the room queue ends no room wait. -/
theorem State.leaving_of_no_entry (none_own : ∀ e ∈ s.roomQueue, e.station ≠ a) :
    s.leaving a = leaveWait a .cancelled (s.modSt a fun r => { r with state := .quiescing }) := by
  rw [State.leaving, removeWaiting_of_none]
  intro e mem
  simpa using none_own e mem

/-! ### The delivery that is abandoned -/

/-- With no delivery for the station there is none to abandon. -/
theorem abandonDelivery_of_none (idle : s.delivering a = false) : abandonDelivery a s = s := by
  unfold abandonDelivery
  split
  · rename_i d waits
    refine if_neg fun own => ?_
    simp [State.delivering, waits, EngineState.delivery, own] at idle
  · rfl

/-- The state after the request for station `a` is dropped, its message QUEUED again, before the next delivery starts
(R134). -/
def State.requeued (s : State) (a : StationId) (d : DescId) : State :=
  { (setMessageState d .queued s).modSt a fun r =>
      if r.ring.state = .disabling then { r with ring := { r.ring with state := .disabled } } else r with
    engine := .idle, gap := true }

theorem abandonDelivery_of_busWait {r : Delivery} (waits : s.engine = .busWait r) (own : r.station = a) :
    abandonDelivery a s = startIfIdle (s.requeued a r.desc) := by
  rw [abandonDelivery, waits]
  exact if_pos own

theorem State.busWait_of_delivering (free : s.bown = false) (delivering : s.delivering a = true) :
    ∃ r, s.engine = .busWait r ∧ r.station = a := by
  obtain ⟨r, delivery, own⟩ := (s.delivering_iff a).mp delivering
  cases engine : s.engine with
  | idle => simp [engine, EngineState.delivery] at delivery
  | busWait d =>
    obtain rfl : d = r := by simpa [engine, EngineState.delivery] using delivery
    exact ⟨d, rfl, own⟩
  | transfer d c => simp [State.bown, engine] at free

/-- The ring of a station whose delivery is abandoned. -/
theorem requeued_ring (s : State) (a : StationId) (d : DescId) : ((s.requeued a d).st a).ring = { (s.st a).ring with
    state := if (s.st a).ring.state = .disabling then .disabled else (s.st a).ring.state } := by
  have own : (s.requeued a d).st a = if (s.st a).ring.state = .disabling then
      { s.st a with ring := { (s.st a).ring with state := .disabled } } else s.st a := by
    show ((setMessageState d .queued s).modSt a _).st a = _
    rw [State.st_modSt_same, (setMessageState_reads d .queued s).1]
  rw [own]
  split <;> rfl

theorem requeued_state (s : State) (a : StationId) (d : DescId) (b : StationId) :
    ((s.requeued a d).st b).state = (s.st b).state := by
  show (((setMessageState d .queued s).modSt a _).st b).state = _
  by_cases own : b = a
  · subst own
    rw [State.st_modSt_same, (setMessageState_reads d .queued s).1]
    split <;> rfl
  · simp [own]

theorem requeued_engine (s : State) (a : StationId) (d : DescId) : (s.requeued a d).engine = .idle ∧
    (s.requeued a d).gap = true ∧ (s.requeued a d).rrPointer = s.rrPointer := ⟨rfl, rfl, by simp [State.requeued]⟩

theorem requeued_messages {d : DescId} {m : Message} (hm : s.msg d = some m) :
    (s.requeued a d).messages = put s.messages d (some { m with state := .queued }) := by
  simp [State.requeued, setMessageState_of_msg hm, State.setMsg]

theorem abandonDelivery_ring (free : s.bown = false) : ((abandonDelivery a s).st a).ring = { (s.st a).ring with
    state := if s.delivering a = true ∧ (s.st a).ring.state = .disabling then .disabled else (s.st a).ring.state } := by
  by_cases delivering : s.delivering a = true
  · obtain ⟨r, waits, own⟩ := State.busWait_of_delivering free delivering
    rw [abandonDelivery_of_busWait waits own]
    simp only [startIfIdle_stations, requeued_ring, delivering, true_and]
  · simp only [Bool.not_eq_true] at delivering
    rw [abandonDelivery_of_none delivering]
    simp [delivering]

/-- The record of a station whose delivery is abandoned: only its ring may change. -/
theorem abandonDelivery_own (free : s.bown = false) : (abandonDelivery a s).st a = { s.st a with
    ring := { (s.st a).ring with
      state := if s.delivering a = true ∧ (s.st a).ring.state = .disabling then .disabled
        else (s.st a).ring.state } } := by
  have fields := abandonDelivery_stations a s a
  have ring := abandonDelivery_ring (a := a) free
  generalize (abandonDelivery a s).st a = r at fields ring
  obtain ⟨_⟩ := r
  simp only at fields ring
  simp only [fields, ring]

/-- A station that is not ONLINE has no delivery once its own is abandoned. -/
theorem abandonDelivery_delivering (free : s.bown = false) (away : (s.st a).state ≠ .online) :
    (abandonDelivery a s).delivering a = false := by
  by_cases delivering : s.delivering a = true
  · obtain ⟨r, waits, own⟩ := State.busWait_of_delivering free delivering
    rw [abandonDelivery_of_busWait waits own]
    cases next : (s.requeued a r.desc).nextDelivery with
    | none =>
      rw [startIfIdle_of_none next]
      rfl
    | some d =>
      rw [startIfIdle_of_next rfl next]
      have online := ((State.eligible_iff _ _).mp (State.nextDelivery_eligible next)).1
      have other : d.station ≠ a := fun same => by
        subst same
        exact away ((requeued_state s _ _ _).symm.trans online)
      simp [State.delivering, EngineState.delivery, other]
  · simp only [Bool.not_eq_true] at delivering
    rw [abandonDelivery_of_none delivering, delivering]

theorem abandonDelivery_dropped (free : s.bown = false) (delivering : s.delivering a = true) :
    (abandonDelivery a s).gap = true ∧ (abandonDelivery a s).bown = false := by
  obtain ⟨r, waits, own⟩ := State.busWait_of_delivering free delivering
  rw [abandonDelivery_of_busWait waits own]
  refine ⟨by simp [State.requeued], ?_⟩
  unfold startIfIdle
  split <;> rfl
end

end Sys2Proof.Machine
end

section
/-! RETIRE during a copy, and the completion of the copy of a station that leaves (O14). -/

namespace Sys2Proof.Machine

-- One proof at a time: many at once take more threads than the check allows.
set_option Elab.async false

/-! ### RETIRE during a copy -/

section
variable {a : StationId} {s : State}

/-- A station that copies has no entry in the room queue (R12). -/
theorem State.RoomQueueAgrees.no_entry (agrees : s.RoomQueueAgrees) (still : ∀ p, (s.st a).send ≠ .awaitRoom p) :
    ∀ e ∈ s.roomQueue, e.station ≠ a := by
  rintro e mem rfl
  obtain ⟨p, waits, -⟩ := agrees.2.1 e mem
  exact still p waits

theorem exec_retire (free : s.bown = false) (online : (s.st a).state = .online) :
    exec (.retire a) s = .next (answered a 0x02 .ok (enterQuiescing a s)) :=
  answered_of_station free online rfl

/-- The state behind the waits of a station that leaves during its copy. -/
def State.waitless (s : State) (a : StationId) : State :=
  leaveWait a .cancelled (s.modSt a fun r => { r with state := .quiescing })

theorem waitless_frame (s : State) (a : StationId) : (s.waitless a).engine = s.engine ∧
    (s.waitless a).channels = s.channels ∧ (s.waitless a).freeCells = s.freeCells ∧
    (s.waitless a).freeDescs = s.freeDescs ∧ (s.waitless a).roomQueue = s.roomQueue ∧
    (s.waitless a).cellStore = s.cellStore ∧ (s.waitless a).messages = s.messages ∧ (s.waitless a).gap = s.gap ∧
    (s.waitless a).rrPointer = s.rrPointer := by
  simp [State.waitless]

theorem waitless_messages (s : State) (a : StationId) : (s.waitless a).messages = s.messages := by simp [State.waitless]

theorem waitless_rrPointer (s : State) (a : StationId) : (s.waitless a).rrPointer = s.rrPointer := by
  simp [State.waitless]

theorem waitless_own (s : State) (a : StationId) : (s.waitless a).st a = { s.st a with
    state := .quiescing, wait := none, lastWait := if (s.st a).wait.isSome then .cancelled else (s.st a).lastWait } := by
  rw [State.waitless, leaveWait_own, State.st_modSt_same]

theorem waitless_other {b : StationId} (other : b ≠ a) : (s.waitless a).st b = s.st b := by
  simp [State.waitless, other]

theorem waitless_delivering (s : State) (a b : StationId) : (s.waitless a).delivering b = s.delivering b :=
  State.delivering_congr (by rw [(waitless_frame s a).1]) b

theorem waitless_bown (s : State) (a : StationId) : (s.waitless a).bown = s.bown := by
  rw [State.bown, State.bown, (waitless_frame s a).1]

theorem waitless_lock (s : State) (a : StationId) (l : LockId) : ((s.waitless a).lock l).state = (s.lock l).state ∧
    ((s.waitless a).lock l).waiters =
      if (s.st a).wait.map (·.lock) = some l then (s.lock l).waiters.erase a else (s.lock l).waiters := by
  have left := leaveWait_lock a .cancelled (s.modSt a fun r => { r with state := .quiescing }) l
  simpa [State.waitless, State.waitsFor] using left

/-- The entry to QUIESCING of a station that copies: its waits and its delivery end, and it stays QUIESCING. -/
theorem enterQuiescing_of_copying (agrees : s.RoomQueueAgrees) {p : Post} {d : DescId}
    (copies : (s.st a).send = .copying p d) :
    enterQuiescing a s = (abandonDelivery a (s.waitless a)).modSt a StationRec.silence := by
  have no_entry := agrees.no_entry (a := a) fun q => by simp [copies]
  rw [enterQuiescing_eq, State.withdrawn, State.leaving_of_no_entry no_entry, ← State.waitless]
  refine quiesce_of_copying ?_
  rw [State.st_modSt_same]
  simp [StationRec.silence, waitless_own, copies, SendState.isCopying]

/-- What the search for the next delivery reads is not changed by the silence of the station and its RESULT. -/
theorem servable_congr {t u : State} (state : ∀ b, (t.st b).state = (u.st b).state)
    (ring : ∀ b, (t.st b).ring = (u.st b).ring) (queues : ∀ b, (t.st b).queues = (u.st b).queues) (b : StationId) :
    t.Servable b ↔ u.Servable b := by
  simp only [State.Servable, StationRec.queue, state, ring, queues]
end

/-! ### The delivery that starts behind an abandoned one -/

section
variable {w : State}

theorem startIfIdle_messages_of_none (none_next : w.nextDelivery = none) : (startIfIdle w).messages = w.messages ∧
    (startIfIdle w).engine = w.engine ∧ (startIfIdle w).rrPointer = w.rrPointer := by
  rw [startIfIdle_of_none none_next]
  exact ⟨rfl, rfl, rfl⟩

/-- The start of a delivery leaves a message that no eligible station has in a queue. -/
theorem startIfIdle_msg_of_unqueued {x : DescId}
    (unqueued : ∀ b c, (w.st b).state = .online → x ∉ (w.st b).queue c) : (startIfIdle w).msg x = w.msg x := by
  unfold startIfIdle
  split
  · rename_i d idle next
    have online := ((State.eligible_iff _ _).mp (State.nextDelivery_eligible next)).1
    obtain ⟨m, rest, head, hm⟩ := State.nextDelivery_head next
    have other : x ≠ d.desc := fun same => unqueued d.station d.cls online (by rw [head, same]; simp)
    show (adoptDelivery d w).msg x = w.msg x
    rw [adoptDelivery, setMessageState_of_msg hm]
    exact State.msg_setMsg_ne w _ other
  · rfl

theorem startIfIdle_first {k : Nat} {b : StationId} {e : ClassId} {x : DescId} {more : List DescId} {n : Message}
    (idle : w.engine = .idle) (low : 1 ≤ k) (high : k ≤ 8) (hb : b.val = (w.rrPointer.val + k) % 8) (servable : w.Servable b)
    (first : ∀ (j : Nat) (b' : StationId), 1 ≤ j → j < k → b'.val = (w.rrPointer.val + j) % 8 → ¬ w.Servable b')
    (urgent : ∀ e' < e, (w.st b).queue e' = []) (head : (w.st b).queue e = x :: more) (hn : w.msg x = some n) :
    (startIfIdle w).messages = put w.messages x (some { n with state := .delivering }) ∧
    (startIfIdle w).rrPointer = b ∧ (startIfIdle w).engine = .busWait (w.deliveryFor b e x n) := by
  rw [(engineStartsTheFirstEligibleStation w).2.2 k b e x more n idle low high hb servable first urgent head hn]
  exact ⟨rfl, rfl, rfl⟩
end

/-! ### The station that has left with its copy (O14) -/

section
variable {a : StationId} {s : State}

/-- Room is granted to stations in AWAIT_ROOM alone. -/
theorem examineAmong_st_of_idle (idle : (s.st a).send = .idle) (q : List RoomEntry) :
    (examineAmong q s).st a = s.st a := by
  induction q generalizing s with
  | nil => rfl
  | cons e rest ih =>
    rw [examineAmong]
    split
    · have kept : (grant e { s with roomQueue := rest }).st a = s.st a := by
        by_cases own : e.station = a
        · have idle' : (({ s with roomQueue := rest } : State).st e.station).send = .idle := own ▸ idle
          rw [grant, idle']
          rfl
        · rw [grant]
          split
          · exact allocate_other _ _ _ (Ne.symm own)
          · rfl
      rw [ih (by rw [kept, idle]), kept]
    · rfl

theorem examine_st_of_idle (idle : (s.st a).send = .idle) : (examine s).st a = s.st a := examineAmong_st_of_idle idle _

theorem endMessage_send_of_idle (idle : (s.st a).send = .idle) (o : EndOutcome) (d : DescId) :
    ((endMessage o d s).st a).send = .idle := by
  cases hm : s.msg d with
  | none => rw [endMessage_of_none hm, idle]
  | some m =>
    rw [endMessage_of_msg hm, examine_st_of_idle]
    all_goals simpa using idle

theorem discardAll_send_of_idle (idle : (s.st a).send = .idle) (ds : List DescId) :
    ((discardAll ds s).st a).send = .idle :=
  foldl_keeps (P := fun t => (t.st a).send = .idle) (fun _ d kept => endMessage_send_of_idle kept .discarded d) _ _ idle

/-- OFFLINE entry leaves the station IDLE, with no message. -/
theorem enterOffline_empty (idle : (s.st a).send = .idle) : ((enterOffline a s).st a).state = .offline ∧
    ((enterOffline a s).st a).send = .idle ∧ (∀ c, ((enterOffline a s).st a).queue c = []) ∧
    ((enterOffline a s).st a).readSlot = none := by
  have send := discardAll_send_of_idle (a := a)
    (s := (s.modSt a fun r => { r with state := .offline }).modSt a fun r =>
      { r with queues := Vector.replicate 4 [], readSlot := none }) (by simpa using idle)
  simp [enterOffline, purge, send, StationRec.queue, entry]

/-- The message is enqueued or its enqueue fails; the post of the station has ended. -/
theorem attemptEnqueue_post {p : Post} {d : DescId} {m : Message} : ∃ (o : SendOutcome) (u : State), o ≠ SendOutcome.none ∧
    attemptEnqueue a p d m s = u.modSt a fun r =>
      StationRec.raised 5 { r with send := .idle, sendResult := { outcome := o, sequence := p.sequence } } := by
  rw [attemptEnqueue]
  cases late : lateCheck m s with
  | none => exact ⟨_, _, by decide, setSource_endPost a p .ok _⟩
  | some failure =>
    refine ⟨failure, _, ?_, setSource_endPost a p failure _⟩
    rintro rfl
    rw [lateCheck] at late
    split at late
    · cases late
    · split at late <;> cases late

theorem startIfIdle_delivering (away : (s.st a).state ≠ .online) (undelivering : s.delivering a = false) :
    (startIfIdle s).delivering a = false := by
  unfold startIfIdle
  split
  · rename_i d _ next
    have online := ((State.eligible_iff _ _).mp (State.nextDelivery_eligible next)).1
    have other : d.station ≠ a := fun same => away (same ▸ online)
    simp [State.delivering, EngineState.delivery, other]
  · exact undelivering
end

/-- With no delivery held, the end of the copy of a station that leaves is its quiescence (R57, R171). -/
theorem copyCompletion_of_quiescing (a : StationId) (p : Post) (d : DescId) (s : State)
    (leaving : (s.st a).state = .quiescing) (copies : (s.st a).send = .copying p d) (allocated : (s.msg d).isSome = true)
    (undelivering : s.delivering a = false) : ∃ t, exec (.copyCompletion a) s = .next t ∧
    (t.st a).state = .offline ∧ (t.st a).send = .idle ∧ (t.st a).sendResult.sequence = p.sequence ∧
    (t.st a).sendResult.outcome ≠ .none ∧ (∀ c, (t.st a).queue c = []) ∧ (t.st a).readSlot = none := by
  obtain ⟨m, hm⟩ := Option.isSome_iff_exists.mp allocated
  obtain ⟨o, u, outcome, attempted⟩ := attemptEnqueue_post (a := a) (s := s.copied a m) (p := p) (d := d) (m := m)
  have state : ((attemptEnqueue a p d m (s.copied a m)).st a).state = .quiescing := by simpa [State.copied] using leaving
  have engine : (attemptEnqueue a p d m (s.copied a m)).delivering a = false := by
    rw [← undelivering]
    exact State.delivering_congr (by simp [State.copied]) a
  have post : ((attemptEnqueue a p d m (s.copied a m)).st a).send = .idle ∧
      ((attemptEnqueue a p d m (s.copied a m)).st a).sendResult = { outcome := o, sequence := p.sequence } := by
    rw [attempted, State.st_modSt_same]
    exact ⟨rfl, rfl⟩
  refine ⟨_, exec_copyCompletion copies hm, ?_⟩
  generalize attemptEnqueue a p d m (s.copied a m) = w at state engine post
  have quiet : quiesce a (startIfIdle w) = enterOffline a (startIfIdle w) :=
    if_pos ⟨by simpa using state, by simp [post.1, SendState.isCopying], startIfIdle_delivering (by simp [state]) engine⟩
  obtain ⟨offline, idle, empty, unread⟩ := enterOffline_empty (a := a) (s := startIfIdle w) (by simpa using post.1)
  rw [quiet]
  exact ⟨offline, idle, by simp [post.2], by simpa [post.2] using outcome, empty, unread⟩

/-! ### RETIRE during the copy (O14) -/

/-- The state after RETIRE of a station that copies. -/
def State.retiredCopying (s : State) (a : StationId) : State :=
  answered a 0x02 .ok ((abandonDelivery a (s.waitless a)).modSt a StationRec.silence)

section
variable {a : StationId} {s : State}

theorem retiredCopying_frame (s : State) (a : StationId) : (s.retiredCopying a).channels = s.channels ∧
    (s.retiredCopying a).freeCells = s.freeCells ∧ (s.retiredCopying a).freeDescs = s.freeDescs ∧
    (s.retiredCopying a).roomQueue = s.roomQueue ∧ (s.retiredCopying a).cellStore = s.cellStore := by
  simp [State.retiredCopying, waitless_frame]

theorem retiredCopying_engine (s : State) (a : StationId) :
    (s.retiredCopying a).engine = (abandonDelivery a (s.waitless a)).engine ∧
    (s.retiredCopying a).messages = (abandonDelivery a (s.waitless a)).messages ∧
    (s.retiredCopying a).gap = (abandonDelivery a (s.waitless a)).gap ∧
    (s.retiredCopying a).rrPointer = (abandonDelivery a (s.waitless a)).rrPointer := by
  simp [State.retiredCopying, answered, written]

theorem retiredCopying_own (free : s.bown = false) : (s.retiredCopying a).st a = { s.st a with
    state := .quiescing, result := { code := .ok, command := 0x02 }, wait := none
    lastWait := if (s.st a).wait.isSome then .cancelled else (s.st a).lastWait
    ring := { (s.st a).ring with
      state := if s.delivering a = true ∧ (s.st a).ring.state = .disabling then .disabled else (s.st a).ring.state }
    pendingFlags := 0, inService := [] } := by
  rw [State.retiredCopying, answered, (written_reads _).1, State.st_modSt_same, State.st_modSt_same,
    abandonDelivery_own (by rwa [waitless_bown]), waitless_own, waitless_delivering]
  rfl

theorem retiredCopying_other {b : StationId} (other : b ≠ a) : (s.retiredCopying a).st b = s.st b := by
  simp [State.retiredCopying, other, waitless_other other]

theorem retiredCopying_ring {b : StationId} :
    ((s.retiredCopying a).st b).ring = ((abandonDelivery a (s.waitless a)).st b).ring := by
  by_cases own : b = a
  · subst own
    simp [State.retiredCopying, StationRec.silence]
  · simp [State.retiredCopying, own]

theorem retiredCopying_servable (b : StationId) :
    (s.retiredCopying a).Servable b ↔ (abandonDelivery a (s.waitless a)).Servable b := by
  refine servable_congr (fun c => ?_) (fun c => retiredCopying_ring) (fun c => ?_) b
  all_goals
    by_cases own : c = a
    · subst own
      simp [State.retiredCopying, StationRec.silence]
    · simp [State.retiredCopying, own]

theorem retiredCopying_queue (b : StationId) (c : ClassId) : ((s.retiredCopying a).st b).queue c = (s.st b).queue c := by
  by_cases own : b = a
  · subst own
    simp [State.retiredCopying, StationRec.silence, StationRec.queue, State.waitless]
  · rw [retiredCopying_other own]

theorem retiredCopying_delivering (free : s.bown = false) : (s.retiredCopying a).delivering a = false := by
  rw [State.delivering_congr (by rw [(retiredCopying_engine s a).1]) a]
  exact abandonDelivery_delivering (by rwa [waitless_bown]) (by simp [waitless_own])

theorem retiredCopying_lock (l : LockId) : ((s.retiredCopying a).lock l).state = (s.lock l).state ∧
    ((s.retiredCopying a).lock l).waiters =
      if (s.st a).wait.map (·.lock) = some l then (s.lock l).waiters.erase a else (s.lock l).waiters := by
  simpa [State.retiredCopying] using waitless_lock s a l

/-- With no delivery for the station the engine and the messages stay. -/
theorem retiredCopying_of_undelivering (undelivering : s.delivering a = false) :
    (s.retiredCopying a).messages = s.messages ∧ (s.retiredCopying a).engine = s.engine ∧
    (s.retiredCopying a).gap = s.gap ∧ (s.retiredCopying a).rrPointer = s.rrPointer := by
  have same : abandonDelivery a (s.waitless a) = s.waitless a :=
    abandonDelivery_of_none (by rwa [waitless_delivering])
  simp [retiredCopying_engine, same, waitless_frame]

section
variable {r : Delivery} {m : Message} (waits : s.engine = .busWait r) (own : r.station = a) (hm : s.msg r.desc = some m)
include waits own

/-- A delivery in BUS_WAIT for the station is abandoned, and the search for the next one follows. -/
theorem retiredCopying_abandons :
    abandonDelivery a (s.waitless a) = startIfIdle ((s.waitless a).requeued a r.desc) :=
  abandonDelivery_of_busWait (by rw [(waitless_frame s a).1, waits]) own

theorem requeued_servable (b : StationId) :
    ((s.waitless a).requeued a r.desc).Servable b ↔ (s.retiredCopying a).Servable b := by
  rw [retiredCopying_servable, retiredCopying_abandons waits own]
  exact (servable_congr (by simp) (by simp) (by simp) b).symm

theorem requeued_st (b : StationId) : ((s.waitless a).requeued a r.desc).st b = (abandonDelivery a (s.waitless a)).st b := by
  rw [retiredCopying_abandons waits own, (startIfIdle_reads _).1]

theorem requeued_queue (b : StationId) (c : ClassId) :
    (((s.waitless a).requeued a r.desc).st b).queue c = ((s.retiredCopying a).st b).queue c := by
  rw [requeued_st waits own, retiredCopying_queue]
  by_cases same : b = a
  · subst same
    simp [StationRec.queue, State.waitless]
  · simp [same, waitless_other same]

include hm

omit waits own in
theorem retiredCopying_back : ((s.waitless a).requeued a r.desc).messages =
    put s.messages r.desc (some { m with state := .queued }) := by
  have hm' : (s.waitless a).msg r.desc = some m := by
    rw [State.msg, waitless_messages]
    exact hm
  rw [requeued_messages hm', waitless_messages]

/-- The message of the abandoned delivery is QUEUED again, where no other station has it. -/
theorem retiredCopying_message (alone : ∀ b e, b ≠ a → r.desc ∉ (s.st b).queue e) :
    (s.retiredCopying a).msg r.desc = some { m with state := .queued } := by
  rw [State.msg, (retiredCopying_engine s a).2.1, retiredCopying_abandons waits own]
  have unqueued : ∀ b c, ((((s.waitless a).requeued a r.desc).st b)).state = .online →
      r.desc ∉ (((s.waitless a).requeued a r.desc).st b).queue c := fun b c online => by
    rw [requeued_queue waits own, retiredCopying_queue]
    refine alone b c fun same => ?_
    subst same
    rw [requeued_state, waitless_own] at online
    cases online
  rw [← State.msg, startIfIdle_msg_of_unqueued unqueued, State.msg, retiredCopying_back hm]
  exact entry_put_same _ _ _

theorem retiredCopying_of_none (none_servable : ∀ b, ¬ (s.retiredCopying a).Servable b) :
    (s.retiredCopying a).engine = .idle ∧
    (s.retiredCopying a).messages = put s.messages r.desc (some { m with state := .queued }) ∧
    (s.retiredCopying a).rrPointer = s.rrPointer := by
  have none_next := State.nextDelivery_eq_none fun b servable =>
    none_servable b ((requeued_servable waits own b).mp servable)
  obtain ⟨messages, engine, pointer⟩ := startIfIdle_messages_of_none none_next
  obtain ⟨engine', messages', -, pointer'⟩ := retiredCopying_engine s a
  rw [engine', messages', pointer', retiredCopying_abandons waits own, messages, engine, pointer,
    retiredCopying_back hm, (requeued_engine _ _ _).1, (requeued_engine _ _ _).2.2]
  exact ⟨rfl, rfl, waitless_rrPointer s a⟩

theorem retiredCopying_first {k : Nat} {b : StationId} {e : ClassId} {x : DescId} {more : List DescId} {n : Message}
    (low : 1 ≤ k) (high : k ≤ 8) (hb : b.val = (s.rrPointer.val + k) % 8) (servable : (s.retiredCopying a).Servable b)
    (first : ∀ (j : Nat) (b' : StationId), 1 ≤ j → j < k → b'.val = (s.rrPointer.val + j) % 8 →
      ¬ (s.retiredCopying a).Servable b')
    (urgent : ∀ e' < e, ((s.retiredCopying a).st b).queue e' = [])
    (head : ((s.retiredCopying a).st b).queue e = x :: more)
    (hn : entry (put s.messages r.desc (some { m with state := .queued })) x = some n) :
    (s.retiredCopying a).messages = put (put s.messages r.desc (some { m with state := .queued })) x
      (some { n with state := .delivering }) ∧ (s.retiredCopying a).rrPointer = b ∧
    (s.retiredCopying a).engine = .busWait
      { station := b, cls := e, desc := x
        slot := ((s.retiredCopying a).st b).ring.produced.toNat % ((s.retiredCopying a).st b).ring.latchedSlots
        header0 := headerWord0 n, header1 := headerWord1 n, next := .header0, retries := 0 } := by
  have pointer : ((s.waitless a).requeued a r.desc).rrPointer = s.rrPointer :=
    (requeued_engine _ _ _).2.2.trans (waitless_rrPointer s a)
  have back := retiredCopying_back (a := a) hm
  have hn' : ((s.waitless a).requeued a r.desc).msg x = some n := by rw [State.msg, back]; exact hn
  obtain ⟨messages, behind, engine⟩ := startIfIdle_first (requeued_engine _ _ _).1 low high (by rw [pointer]; exact hb)
    ((requeued_servable waits own b).mpr servable)
    (fun j b' hj hj' hb' servable' => first j b' hj hj' (by rw [← pointer]; exact hb')
      ((requeued_servable waits own b').mp servable'))
    (fun e' he' => by rw [requeued_queue waits own]; exact urgent e' he')
    (by rw [requeued_queue waits own]; exact head) hn'
  obtain ⟨engine', messages', -, pointer'⟩ := retiredCopying_engine s a
  rw [engine', messages', pointer', retiredCopying_abandons waits own, messages, behind, engine, back, retiredCopying_ring,
    ← requeued_st waits own]
  exact ⟨rfl, rfl, rfl⟩
end
end

/-- Settles O14: the delivery that is abandoned gives way to the first eligible one, and the end of the copy is the
quiescence. -/
theorem retireDuringCopyWaitsForCompletion : Obligations.RetireDuringCopyWaitsForCompletion := by
  refine ⟨fun a p d s free online copies agrees => ⟨s.retiredCopying a, ?_, retiredCopying_own free,
    fun b other => retiredCopying_other other, retiredCopying_delivering free, ?_⟩, copyCompletion_of_quiescing⟩
  · rw [exec_retire free online, enterQuiescing_of_copying agrees copies, State.retiredCopying]
  obtain ⟨channels, cells, descs, queue, store⟩ := retiredCopying_frame s a
  refine ⟨channels, cells, descs, queue, store, retiredCopying_of_undelivering, ?_, retiredCopying_lock⟩
  rintro r m back waits own hm rfl
  have dropped := abandonDelivery_dropped (a := a) (s := s.waitless a) (by rwa [waitless_bown]) (by
    rw [waitless_delivering]
    exact (s.delivering_iff a).mpr ⟨r, by rw [waits]; rfl, own⟩)
  refine ⟨(retiredCopying_engine s a).2.2.1.trans dropped.1, fun head => by rw [retiredCopying_queue, head],
    retiredCopying_message waits own hm, retiredCopying_of_none waits own hm,
    fun k b e x more n low high hb servable first urgent head hn => ?_⟩
  exact retiredCopying_first waits own hm low high hb servable first urgent head hn

end Sys2Proof.Machine
end

section
/-! OFFLINE entry as a whole: who is spared, who is granted, and what becomes of each lock (O12, O13). -/

namespace Sys2Proof.Machine

-- One proof at a time: many at once take more threads than the check allows.
set_option Elab.async false

/-! ### The lock of a message that is discarded -/

section
variable {a b w : StationId} {l : LockId} {s : State}

theorem disposeLock_discarded_of_none {m : Message} (free : m.carriedLock = none) : disposeLock .discarded m s = s := by
  simp [disposeLock, free]

theorem disposeLock_discarded_of_some {m : Message} (carries : m.carriedLock = some l) :
    disposeLock .discarded m s = handoff l s := by
  simp [disposeLock, carries]

/-- A law that a handoff, a confirmation and an examination keep, and that the lists of the store do not change, is kept by
the end of a discarded message. -/
theorem endMessage_discarded_keeps {P : State → Prop} (handed : ∀ l t, P t → P (handoff l t))
    (confirmed : ∀ m t, P t → P (confirmEnd .discarded m t)) (freed : ∀ t d m, P t → P (State.freed t d m))
    (examined : ∀ t, P t → P (examine t)) (d : DescId) (h : P s) : P (endMessage .discarded d s) := by
  cases hm : s.msg d with
  | none => rwa [endMessage_of_none hm]
  | some m =>
    rw [endMessage_of_msg hm]
    refine examined _ (freed _ d m (confirmed m _ ?_))
    cases carries : m.carriedLock with
    | none => rwa [disposeLock_discarded_of_none carries]
    | some l =>
      rw [disposeLock_discarded_of_some carries]
      exact handed l s h

theorem discardAll_keeps {P : State → Prop} (handed : ∀ l t, P t → P (handoff l t))
    (confirmed : ∀ m t, P t → P (confirmEnd .discarded m t)) (freed : ∀ t d m, P t → P (State.freed t d m))
    (examined : ∀ t, P t → P (examine t)) (ds : List DescId) (h : P s) : P (discardAll ds s) :=
  foldl_keeps (fun _ d => endMessage_discarded_keeps handed confirmed freed examined d) _ _ h

theorem releaseHoldings_keeps {P : State → Prop} (handed : ∀ l t, P t → P (handoff l t)) (a : StationId) (h : P s) :
    P (releaseHoldings a s) := by
  refine foldl_keeps (fun t l ht => ?_) _ _ h
  unfold releaseIfHeld
  split
  · exact handed l t ht
  · exact ht

/-! ### A station that has left is spared -/

theorem handoffAmong_st_of_unlisted {ws : List StationId} (unlisted : b ∉ ws) :
    (handoffAmong l ws s).st b = s.st b := by
  induction ws generalizing s with
  | nil => rfl
  | cons w rest ih =>
    obtain ⟨ne, unlisted⟩ := (List.mem_cons.not.trans not_or).mp unlisted
    rw [handoffAmong]
    split
    · simp [ne]
    · rw [ih unlisted, endWait_other _ _ _ ne]

/-- The waiter lists agree with the waits, and station `a` has the record `r`. -/
def State.Spares (s : State) (a : StationId) (r : StationRec) : Prop := s.WaitersAgree ∧ s.st a = r

theorem State.Spares.handoff {r : StationRec} (unwaiting : r.wait = none) (h : s.Spares a r) (l : LockId) :
    (handoff l s).Spares a r := by
  obtain ⟨agree, own⟩ := h
  refine ⟨handoff_keeps_waitersAgree agree l, ?_⟩
  have unlisted : a ∉ (s.lock l).waiters := fun mem => by
    have waits := (agree.2.1 a l).mp mem
    simp [own, unwaiting] at waits
  rw [Machine.handoff, handoffAmong_st_of_unlisted unlisted, own]

theorem State.Spares.confirmEnd {r : StationRec} (away : r.state ≠ .online) (h : s.Spares a r) (o : EndOutcome)
    (m : Message) : (confirmEnd o m s).Spares a r := by
  obtain ⟨agree, own⟩ := h
  refine ⟨agree.frame (by simp) (by simp) (by simp), ?_⟩
  by_cases source : a = m.source
  · subst source
    rw [confirmEnd_of_no (.inr (by rwa [own])), own]
  · rw [confirmEnd_other o source, own]

theorem State.Spares.examine {r : StationRec} (idle : r.send = .idle) (h : s.Spares a r) : (examine s).Spares a r := by
  obtain ⟨agree, own⟩ := h
  exact ⟨agree.frame (by simp) (by simp) (by simp), (examine_st_of_idle (by rw [own, idle])).trans own⟩

theorem State.Spares.freed {r : StationRec} (h : s.Spares a r) (d : DescId) (m : Message) :
    (s.freed d m).Spares a r := ⟨h.1.frame rfl (fun _ => rfl) fun _ => rfl, h.2⟩

theorem State.Spares.discardAll {r : StationRec} (away : r.state ≠ .online) (idle : r.send = .idle)
    (unwaiting : r.wait = none) (h : s.Spares a r) (ds : List DescId) : (discardAll ds s).Spares a r :=
  discardAll_keeps (P := fun t => t.Spares a r) (fun l _ ht => ht.handoff unwaiting l) (fun m _ ht => ht.confirmEnd away _ m)
    (fun _ d m ht => ht.freed d m) (fun _ ht => ht.examine idle) ds h

theorem State.Spares.releaseHoldings {r : StationRec} (unwaiting : r.wait = none) (h : s.Spares a r) :
    (releaseHoldings a s).Spares a r :=
  releaseHoldings_keeps (P := fun t => t.Spares a r) (fun l _ ht => ht.handoff unwaiting l) a h

/-! ### A station whose wait is granted -/

/-- Station `w`, ONLINE, has been granted its wait (R102). -/
def State.GrantedTo (s : State) (w : StationId) : Prop :=
  (s.st w).state = .online ∧ (s.st w).wait = none ∧ (s.st w).lastWait = .granted ∧
    (s.st w).pendingFlags.getLsbD 4 = true

theorem State.GrantedTo.of_reads {t : State} (h : s.GrantedTo w) (state : (t.st w).state = (s.st w).state)
    (wait : (t.st w).wait = (s.st w).wait) (lastWait : (t.st w).lastWait = (s.st w).lastWait)
    (flag : (s.st w).pendingFlags.getLsbD 4 = true → (t.st w).pendingFlags.getLsbD 4 = true) : t.GrantedTo w := by
  obtain ⟨online, unwaiting, granted, set⟩ := h
  exact ⟨state.trans online, wait.trans unwaiting, lastWait.trans granted, flag set⟩

theorem grantedTo_of_grant (online : (s.st w).state = .online) :
    (setSource w srcLock (endWait w .granted s)).GrantedTo w := by
  have online' : ((endWait w .granted s).st w).state = .online := by simpa using online
  refine ⟨by simpa using online, by simp [endWait], by simp [endWait], ?_⟩
  rw [setSource_eq, State.st_modSt_same]
  exact StationRec.raised_own_flag online' srcLock

/-- A handoff grants no wait twice, and takes back none (R101, R102). -/
theorem State.GrantedTo.handoffAmong (h : s.GrantedTo w) (l : LockId) (ws : List StationId) :
    (handoffAmong l ws s).GrantedTo w := by
  induction ws generalizing s with
  | nil => exact h
  | cons v rest ih =>
    rw [Machine.handoffAmong]
    by_cases own : w = v
    · subst own
      rw [if_pos h.1]
      exact grantedTo_of_grant h.1
    · split
      · exact h.of_reads (by simp) (by simp [own]) (by simp [own]) (by simp [own])
      · exact ih (h.of_reads (by simp) (by simp [own]) (by simp [own]) (by simp [own]))

theorem State.GrantedTo.handoff (h : s.GrantedTo w) (l : LockId) : (handoff l s).GrantedTo w := h.handoffAmong l _

theorem State.GrantedTo.endMessage (h : s.GrantedTo w) (d : DescId) : (endMessage .discarded d s).GrantedTo w :=
  endMessage_discarded_keeps (P := fun t => t.GrantedTo w) (fun l _ ht => ht.handoff l)
    (fun m _ ht => ht.of_reads (by simp) (by simp) (by simp) (confirmEnd_flag _ m)) (fun _ _ _ ht => ht)
    (fun _ ht => ht.of_reads (by simp) (by simp) (by simp) (by simp)) d h

theorem State.GrantedTo.discardAll (h : s.GrantedTo w) (ds : List DescId) : (discardAll ds s).GrantedTo w :=
  foldl_keeps (P := fun t => t.GrantedTo w) (fun _ d ht => ht.endMessage d) _ _ h

theorem State.GrantedTo.releaseHoldings (h : s.GrantedTo w) (a : StationId) : (releaseHoldings a s).GrantedTo w :=
  releaseHoldings_keeps (P := fun t => t.GrantedTo w) (fun l _ ht => ht.handoff l) a h

theorem State.GrantedTo.modSt_other (h : s.GrantedTo w) (other : w ≠ a) (f : StationRec → StationRec) :
    (s.modSt a f).GrantedTo w :=
  h.of_reads (by simp [other]) (by simp [other]) (by simp [other]) (by simp [other])

/-! ### What a handoff leaves -/

/-- The stations of a waiter list that a handoff may give the lock to. -/
def State.present (s : State) (ws : List StationId) : List StationId :=
  ws.filter fun w => decide ((s.st w).state = .online)

theorem State.present_congr {t : State} (states : ∀ b, (t.st b).state = (s.st b).state) (ws : List StationId) :
    t.present ws = s.present ws := by
  simp only [State.present, states]

theorem handoffAmong_of_none_present {ws : List StationId} (none_present : s.present ws = []) :
    (handoffAmong l ws s).lock l = { state := .free, waiters := [] } := by
  induction ws generalizing s with
  | nil => simp [handoffAmong]
  | cons v rest ih =>
    have away : (s.st v).state ≠ .online := by
      simpa using List.filter_eq_nil_iff.mp none_present v List.mem_cons_self
    rw [handoffAmong, if_neg away]
    refine ih ?_
    rw [State.present_congr (s := s) (by simp)]
    simpa [State.present, away] using none_present

theorem handoffAmong_of_present {ws more : List StationId} (first : s.present ws = w :: more) :
    ((handoffAmong l ws s).lock l).state = .held w ∧ (handoffAmong l ws s).GrantedTo w := by
  induction ws generalizing s with
  | nil => simp [State.present] at first
  | cons v rest ih =>
    rw [handoffAmong]
    by_cases online : (s.st v).state = .online
    · obtain ⟨rfl, -⟩ : v = w ∧ s.present rest = more := by simpa [State.present, online] using first
      rw [if_pos online]
      exact ⟨by simp, grantedTo_of_grant online⟩
    · rw [if_neg online]
      refine ih ?_
      rw [State.present_congr (s := s) (by simp)]
      simpa [State.present, online] using first

/-! ### What OFFLINE entry does to a lock -/

theorem releaseIfHeld_lock_other {k : LockId} (ne : l ≠ k) : (releaseIfHeld a s k).lock l = s.lock l := by
  unfold releaseIfHeld
  split
  · exact handoff_lock_other ne s
  · rfl

theorem releaseEach_lock_of_unvisited {ks : List LockId} (unvisited : l ∉ ks) :
    (ks.foldl (releaseIfHeld a) s).lock l = s.lock l := by
  induction ks generalizing s with
  | nil => rfl
  | cons k rest ih =>
    obtain ⟨ne, unvisited⟩ := (List.mem_cons.not.trans not_or).mp unvisited
    rw [List.foldl_cons, ih unvisited, releaseIfHeld_lock_other ne]

/-- The release of a station's locks leaves every lock that it does not hold. -/
theorem releaseHoldings_lock_of_not_held (not_held : (s.lock l).state ≠ .held a) :
    (releaseHoldings a s).lock l = s.lock l :=
  foldl_keeps (P := fun t => t.lock l = s.lock l) (fun t k kept => by
    by_cases own : l = k
    · subst own
      rw [releaseIfHeld, if_neg (by rwa [kept]), kept]
    · rw [releaseIfHeld_lock_other own, kept]) _ _ rfl

/-- The release of a station's locks visits each lock it holds once: the lock is what one handoff makes of it. -/
theorem releaseHoldings_lock_of_held (agree : s.WaitersAgree) (held : (s.lock l).state = .held a) :
    ((s.lock l).waiters = [] → (releaseHoldings a s).lock l = { state := .free, waiters := [] }) ∧
    ∀ w rest, (s.lock l).waiters = w :: rest → (releaseHoldings a s).lock l = { state := .held w, waiters := rest } ∧
      (releaseHoldings a s).GrantedTo w := by
  obtain ⟨before, behind, visits⟩ := List.append_of_mem (List.mem_finRange l)
  have nodup := List.nodup_finRange 32
  rw [visits, List.nodup_append, List.nodup_cons] at nodup
  obtain ⟨-, ⟨fresh, -⟩, apart⟩ := nodup
  have unvisited : l ∉ before := fun mem => apart l mem l List.mem_cons_self rfl
  have kept : (before.foldl (releaseIfHeld a) s).lock l = s.lock l := releaseEach_lock_of_unvisited unvisited
  have agree' : (before.foldl (releaseIfHeld a) s).WaitersAgree := foldl_keeps (fun t k ht => by
    unfold releaseIfHeld
    split
    · exact handoff_keeps_waitersAgree ht k
    · exact ht) _ _ agree
  have visited : releaseHoldings a s =
      behind.foldl (releaseIfHeld a) (handoff l (before.foldl (releaseIfHeld a) s)) := by
    rw [releaseHoldings, visits, List.foldl_append, List.foldl_cons]
    congr 1
    exact if_pos (by rw [kept, held])
  generalize before.foldl (releaseIfHeld a) s = t at kept agree' visited
  rw [visited, releaseEach_lock_of_unvisited fresh, ← kept]
  refine ⟨fun none_waits => by rw [handoff_of_nil none_waits]; simp, fun w rest waiters => ?_⟩
  have online : (t.st w).state = .online :=
    agree'.2.2.1 w (by
      have waits := (agree'.2.1 w l).mp (by simp [waiters])
      cases wait : (t.st w).wait <;> simp_all)
  rw [handoff_of_online waiters online]
  refine ⟨by simp, foldl_keeps (P := fun u => u.GrantedTo w) (fun u k hu => ?_) _ _ (grantedTo_of_grant ?_)⟩
  · unfold releaseIfHeld
    split
    · exact hu.handoff k
    · exact hu
  · exact online

end

end Sys2Proof.Machine
end

section
/-! RETIRE with no copy in flight (O12): the state at the quiescence event, and OFFLINE entry from it. -/

namespace Sys2Proof.Machine

-- One proof at a time: many at once take more threads than the check allows.
set_option Elab.async false

/-! ### The purge and a lock that no held message carries -/

section
variable {a b : StationId} {l : LockId} {s : State}

/-- A record in use is not given away while the room queue is examined. -/
theorem lawOfWaits_inUse (x : DescId) (m : Message) : LawOfWaits fun _ s => s.StoreConserved ∧ s.msg x = some m where
  perm _ h := h
  onQueue _ h := h
  onGrant {e q s} h room := by
    obtain ⟨conserved, used⟩ := h
    refine ⟨lawOfWaits_storeConserved.onGrant (e := e) (q := q) conserved room, ?_⟩
    unfold grant
    split
    · obtain ⟨d, rest, free⟩ := List.exists_cons_of_ne_nil room
      have unused : s.msg d = none := (conserved.2.2 d).mp (by simp [free])
      have ne : x ≠ d := fun same => by simp [← same, used] at unused
      rw [allocate_eq free]
      simpa [State.msg, ne] using used
    · exact used
  onEnd {e q s} o sent h := by
    obtain ⟨conserved, used⟩ := h
    exact ⟨lawOfWaits_storeConserved.onEnd (e := e) (q := q) o sent conserved, by simpa [State.msg] using used⟩

/-- The end of a message leaves every other record in use as it is. -/
theorem endMessage_msg_other (conserved : s.StoreConserved) (o : EndOutcome) {d x : DescId} {m : Message}
    (used : s.msg x = some m) (ne : x ≠ d) : (endMessage o d s).msg x = some m := by
  cases hd : s.msg d with
  | none => rwa [endMessage_of_none hd]
  | some n =>
    rw [endMessage_of_msg hd]
    have settled : (confirmEnd o n (disposeLock o n s)).StoreConserved :=
      conserved.frame (.of_fields (by simp) (by simp) (by simp))
    refine ((lawOfWaits_inUse x m).examine ⟨settled.freed (by simpa using hd), ?_⟩).2
    rw [State.freed_msg_ne _ n ne]
    simpa using used

theorem endMessage_lock_of_uncarried {d : DescId} {m : Message} (hm : s.msg d = some m) (other : m.carriedLock ≠ some l) :
    (endMessage .discarded d s).lock l = s.lock l := by
  rw [endMessage_of_msg hm]
  have disposed : (disposeLock .discarded m s).lock l = s.lock l := by
    cases carries : m.carriedLock with
    | none => rw [disposeLock_discarded_of_none carries]
    | some k =>
      rw [disposeLock_discarded_of_some carries]
      exact handoff_lock_other (fun same => other (by rw [carries, same])) s
  rw [← disposed]
  simp

/-- The ends of messages leave a lock that none of them carries. -/
theorem discardAll_lock_of_uncarried (conserved : s.StoreConserved) {ds : List DescId} (nodup : ds.Nodup)
    (uncarried : ∀ d ∈ ds, ∃ m, s.msg d = some m ∧ m.carriedLock ≠ some l) : (discardAll ds s).lock l = s.lock l := by
  induction ds generalizing s with
  | nil => rfl
  | cons d rest ih =>
    obtain ⟨fresh, nodup⟩ := List.nodup_cons.mp nodup
    obtain ⟨m, hm, other⟩ := uncarried d List.mem_cons_self
    show (discardAll rest (endMessage .discarded d s)).lock l = _
    rw [ih (conserved.endMessage .discarded d) nodup fun x mem => ?_, endMessage_lock_of_uncarried hm other]
    obtain ⟨n, hn, free⟩ := uncarried x (List.mem_cons_of_mem _ mem)
    exact ⟨n, endMessage_msg_other conserved .discarded hn fun same => fresh (same ▸ mem), free⟩

/-- The purge leaves a lock that no message held by the station carries. -/
theorem purge_lock_of_uncarried (conserved : s.StoreConserved) (right : s.PlacesRight)
    (uncarried : ∀ d ∈ (s.st a).heldMessages, (s.lock l).state ≠ .carried d) : (purge a s).lock l = s.lock l := by
  have emptied : (s.modSt a fun r => { r with queues := Vector.replicate 4 [], readSlot := none }).StoreConserved :=
    conserved.modSt
  rw [purge]
  refine (discardAll_lock_of_uncarried emptied (right.heldMessages_nodup a) fun d mem => ?_).trans (by simp)
  rw [State.modSt_msg]
  have placed := (s.placed_view_iff.mp right).2
  rcases StationRec.mem_heldMessages.mp mem with ⟨c, queued⟩ | ⟨slot, read, rfl⟩
  · obtain ⟨m, hm, -, -, waiting⟩ := (placed.queued a c).2 d queued
    refine ⟨m, hm, fun carries => uncarried d mem ((placed.carried l d).mpr ⟨m, hm, carries, ?_⟩)⟩
    rcases waiting with queued | delivering
    · simp [queued]
    · simp [delivering]
  · obtain ⟨m, hm, -, -, free⟩ := placed.reading a slot read
    exact ⟨m, hm, by simp [free]⟩

/-! ### OFFLINE entry -/

/-- The record of a station that has gone OFFLINE. -/
theorem enterOffline_own (agree : s.WaitersAgree) (away : (s.st a).state ≠ .online) (idle : (s.st a).send = .idle)
    (unwaiting : (s.st a).wait = none) : (enterOffline a s).st a = { s.st a with
      state := .offline, queues := Vector.replicate 4 [], readSlot := none
      ring := { (s.st a).ring with state := .disabled }, confirms := [], confirmOverflow := false } := by
  have left := agree.offline away
  let emptied : StationRec := { s.st a with state := .offline, queues := Vector.replicate 4 [], readSlot := none }
  have start : ((s.modSt a fun r => { r with state := .offline }).modSt a fun r =>
      { r with queues := Vector.replicate 4 [], readSlot := none }).Spares a emptied := ⟨left.modSt, by simp [emptied]⟩
  have purged : (purge a (s.modSt a fun r => { r with state := .offline })).Spares a emptied := by
    rw [purge]
    exact start.discardAll (r := emptied) (by simp [emptied]) idle unwaiting _
  rw [enterOffline, State.st_modSt_same, (purged.releaseHoldings (r := emptied) unwaiting).2]

/-- The other stations keep these at the OFFLINE entry of a station. -/
theorem enterOffline_other (other : b ≠ a) : ((enterOffline a s).st b).state = (s.st b).state ∧
    ((enterOffline a s).st b).queues = (s.st b).queues ∧ ((enterOffline a s).st b).readSlot = (s.st b).readSlot ∧
    ((enterOffline a s).st b).ring = (s.st b).ring := by
  simp [enterOffline, purge, other]

theorem examine_unentered (unentered : ∀ e ∈ s.roomQueue, e.station ≠ a) : ∀ e ∈ (examine s).roomQueue, e.station ≠ a :=
  fun e mem => unentered e ((examineAmong_suffix _ s).subset mem)

/-- OFFLINE entry brings no station into the room queue. -/
theorem enterOffline_unentered (unentered : ∀ e ∈ s.roomQueue, e.station ≠ a) :
    ∀ e ∈ (enterOffline a s).roomQueue, e.station ≠ a := by
  have purged : ∀ e ∈ (purge a (s.modSt a fun r => { r with state := .offline })).roomQueue, e.station ≠ a := by
    rw [purge]
    exact discardAll_keeps (P := fun t => ∀ e ∈ t.roomQueue, e.station ≠ a) (fun l t ht => by simpa using ht)
      (fun m t ht => by simpa using ht) (fun _ _ _ ht => ht) (fun _ ht => examine_unentered ht) _ unentered
  simpa [enterOffline] using purged

theorem enterOffline_lock (a : StationId) (s : State) (l : LockId) : (enterOffline a s).lock l =
    (releaseHoldings a (purge a (s.modSt a fun r => { r with state := .offline }))).lock l := by
  rw [enterOffline, State.modSt_lock]

/-- OFFLINE entry hands off a lock that the station holds and that no message held by it carries. -/
theorem enterOffline_lock_of_held (agree : s.WaitersAgree) (away : (s.st a).state ≠ .online)
    (unlisted : a ∉ (s.lock l).waiters)
    (purged : (purge a (s.modSt a fun r => { r with state := .offline })).lock l = s.lock l)
    (held : (s.lock l).state = .held a) :
    ((s.lock l).waiters = [] → (enterOffline a s).lock l = { state := .free, waiters := [] }) ∧
    ∀ w rest, (s.lock l).waiters = w :: rest → (enterOffline a s).lock l = { state := .held w, waiters := rest } ∧
      (enterOffline a s).GrantedTo w := by
  have left := agree.offline away
  have held' : ((purge a (s.modSt a fun r => { r with state := .offline })).lock l).state = .held a := by
    rw [purged, held]
  obtain ⟨freed, given⟩ := releaseHoldings_lock_of_held (purge_keeps_waitersAgree left a) held'
  rw [purged] at freed given
  rw [enterOffline_lock]
  refine ⟨freed, fun w rest waiters => ?_⟩
  obtain ⟨lock, granted⟩ := given w rest waiters
  rw [enterOffline]
  exact ⟨lock, granted.modSt_other (fun same => unlisted (by simp [waiters, same])) _⟩

end

end Sys2Proof.Machine
end

section
/-! RETIRE with no copy in flight (O12): the end of the waits, and OFFLINE entry. -/

namespace Sys2Proof.Machine

-- One proof at a time: many at once take more threads than the check allows.
set_option Elab.async false

/-! ### The end of the station's room wait -/

section
variable {a b : StationId} {l : LockId} {p : Post} {s : State}

/-- The entry of a station in AWAIT_ROOM is its only one, and its removal is the end of its post, with or without an
examination. -/
theorem removeWaiting_of_agrees (agrees : WaitsAgree s.roomQueue s) (waits : (s.st a).send = .awaitRoom p)
    (o : SendOutcome) (sent : Bool) : ∃ q, removeWaiting (fun e => e.station == a) o sent s =
        examine (endRoomWait a o sent { s with roomQueue := q }) ∨
      removeWaiting (fun e => e.station == a) o sent s = endRoomWait a o sent { s with roomQueue := q } := by
  obtain ⟨e, mem, own⟩ := agrees.entries a p waits
  obtain ⟨before, behind, queue⟩ := List.append_of_mem mem
  have distinct := agrees.stations
  rw [queue, List.map_append, List.map_cons, List.nodup_middle, List.nodup_cons] at distinct
  have others : ∀ x ∈ before ++ behind, x.station ≠ a := fun x inside same =>
    distinct.1 (by rw [own, ← List.map_append]; exact List.mem_map.mpr ⟨x, inside, same⟩)
  refine ⟨before ++ behind, ?_⟩
  rw [removeWaiting_station queue own others]
  split
  · exact .inl rfl
  · exact .inr rfl

/-- The state after the room wait of a station that leaves has ended. -/
def State.roomless (s : State) (a : StationId) : State :=
  removeWaiting (fun e => e.station == a) .cancelled false (s.modSt a fun r => { r with state := .quiescing })

theorem State.leaving_eq (s : State) (a : StationId) : s.leaving a = leaveWait a .cancelled (s.roomless a) := rfl

/-- What the end of the room wait of a station in AWAIT_ROOM does to stations and locks. -/
theorem roomless_of_waiting (agrees : s.RoomQueueAgrees) (waits : (s.st a).send = .awaitRoom p) :
    (s.roomless a).st a = { s.st a with
      state := .quiescing, send := .idle, sendResult := { outcome := .cancelled, sequence := p.sequence } } ∧
    (∀ b, b ≠ a → ((s.roomless a).st b).sendResult = (s.st b).sendResult) ∧
    ∀ l, (s.roomless a).lock l =
      { state := if p.passLock = some l then .held a else (s.lock l).state, waiters := (s.lock l).waiters } := by
  let t := s.modSt a fun r => { r with state := .quiescing }
  have agrees' : WaitsAgree t.roomQueue t := (s.roomQueueAgrees_iff.mp agrees).1.congr (.of_send fun b => by
    by_cases own : b = a
    · subst own; simp [t]
    · simp [t, own])
  have waits' : (t.st a).send = .awaitRoom p := by simpa [t] using waits
  obtain ⟨q, removed⟩ := removeWaiting_of_agrees agrees' waits' .cancelled false
  have ended := endRoomWait_eq (s := { t with roomQueue := q }) waits' .cancelled false
  have own : (endRoomWait a .cancelled false { t with roomQueue := q }).st a = { s.st a with
      state := .quiescing, send := .idle, sendResult := { outcome := .cancelled, sequence := p.sequence } } := by
    rw [ended]
    simp [t, State.st, State.modSt]
  have locks : ∀ l, (endRoomWait a .cancelled false { t with roomQueue := q }).lock l =
      { state := if p.passLock = some l then .held a else (s.lock l).state, waiters := (s.lock l).waiters } := fun l => by
    rw [ended]
    cases passed : p.passLock with
    | none => simp [State.lock, t]
    | some k =>
      by_cases same : l = k
      · subst same; simp [State.lock, t]
      · simp [State.lock, t, same, Ne.symm same]
  have others : ∀ b, b ≠ a → (endRoomWait a .cancelled false { t with roomQueue := q }).st b = s.st b := fun b ne =>
    (endRoomWait_other _ _ _ _ ne).trans (State.st_modSt_ne s (fun r => { r with state := .quiescing }) ne)
  generalize endRoomWait a .cancelled false { t with roomQueue := q } = u at removed own locks others
  have roomless : s.roomless a = examine u ∨ s.roomless a = u := removed
  rcases roomless with examined | same
  · rw [examined]
    exact ⟨(examine_st_of_idle (by rw [own])).trans own, fun b ne => by simp [others b ne], fun l => by simp [locks]⟩
  · rw [same]
    exact ⟨own, fun b ne => by rw [others b ne], locks⟩

/-- A station that is IDLE has no room wait to end. -/
theorem roomless_of_idle (agrees : s.RoomQueueAgrees) (idle : (s.st a).send = .idle) :
    s.roomless a = s.modSt a fun r => { r with state := .quiescing } := by
  have no_entry := agrees.no_entry (a := a) fun q => by simp [idle]
  exact removeWaiting_of_none (fun e mem => by simpa using no_entry e mem) _ _

/-- SEND_RESULT of a station after its room wait, where it has one, has ended CANCELLED. -/
def StationRec.cancelledResult (r : StationRec) : SendReport :=
  match r.send with
  | .awaitRoom p => { outcome := .cancelled, sequence := p.sequence }
  | _ => r.sendResult

theorem StationRec.cancelledResult_of_idle {r : StationRec} (idle : r.send = .idle) : r.cancelledResult = r.sendResult := by
  rw [StationRec.cancelledResult, idle]

theorem StationRec.cancelledResult_of_awaitRoom {r : StationRec} {p : Post} (waits : r.send = .awaitRoom p) :
    r.cancelledResult = { outcome := .cancelled, sequence := p.sequence } := by
  rw [StationRec.cancelledResult, waits]

theorem roomless_own (agrees : s.RoomQueueAgrees) (still : (s.st a).send.isCopying = false) :
    (s.roomless a).st a = { s.st a with
      state := .quiescing, send := .idle
      sendResult := (s.st a).cancelledResult } := by
  cases send : (s.st a).send with
  | idle =>
    rw [roomless_of_idle agrees send, State.st_modSt_same, StationRec.cancelledResult_of_idle send]
    simp only [← send]
  | awaitRoom p => rw [(roomless_of_waiting agrees send).1, StationRec.cancelledResult_of_awaitRoom send]
  | copying p d => simp [send, SendState.isCopying] at still

theorem roomless_sendResult (agrees : s.RoomQueueAgrees) (still : (s.st a).send.isCopying = false) (other : b ≠ a) :
    ((s.roomless a).st b).sendResult = (s.st b).sendResult := by
  cases send : (s.st a).send with
  | idle => rw [roomless_of_idle agrees send, State.st_modSt_ne _ _ other]
  | awaitRoom p => exact (roomless_of_waiting agrees send).2.1 b other
  | copying p d => simp [send, SendState.isCopying] at still

/-- The lock that the waiting post passes is HELD by its station again; every other lock stays (R48, R106). -/
theorem roomless_lock (agrees : s.RoomQueueAgrees) (placed : s.MessagesPlaced) (still : (s.st a).send.isCopying = false)
    (l : LockId) : (s.roomless a).lock l =
      { state := if (s.lock l).state = .pledged a then .held a else (s.lock l).state, waiters := (s.lock l).waiters } := by
  cases send : (s.st a).send with
  | idle =>
    have unpledged : (s.lock l).state ≠ .pledged a := fun pledged => by
      obtain ⟨p, post, -⟩ := (placed.pledged l a).mp pledged
      simp [send, SendState.post] at post
    rw [roomless_of_idle agrees send, State.modSt_lock, if_neg unpledged]
  | awaitRoom p =>
    have pledges : (s.lock l).state = .pledged a ↔ p.passLock = some l := by
      simp [placed.pledged l a, send, SendState.post]
    rw [(roomless_of_waiting agrees send).2.2 l]
    simp only [pledges]
  | copying p d => simp [send, SendState.isCopying] at still

theorem roomless_unentered (s : State) (a : StationId) : ∀ e ∈ (s.roomless a).roomQueue, e.station ≠ a := fun e mem => by
  simpa using (mem_removeWaiting mem).2
end

/-! ### The quiescence event -/

section
variable {a b : StationId} {l : LockId} {s : State}

theorem leaving_delivering (s : State) (a b : StationId) : (s.leaving a).delivering b = s.delivering b :=
  State.delivering_congr (by simp [State.leaving]) b

theorem leaving_bown (s : State) (a : StationId) : (s.leaving a).bown = s.bown := by
  simp [State.bown, State.leaving]

theorem leaving_state (s : State) (a : StationId) : ((s.leaving a).st a).state = .quiescing := by
  simp [State.leaving]

theorem withdrawn_delivering (free : s.bown = false) : (s.withdrawn a).delivering a = false := by
  have gone := abandonDelivery_delivering (a := a) (s := s.leaving a) (by rwa [leaving_bown]) (by simp [leaving_state])
  exact (State.delivering_congr (s := abandonDelivery a (s.leaving a)) rfl a).trans gone

/-- The record of the station at its quiescence event. -/
theorem withdrawn_own (free : s.bown = false) (agrees : s.RoomQueueAgrees) (still : (s.st a).send.isCopying = false) :
    (s.withdrawn a).st a = { s.st a with
      state := .quiescing, send := .idle
      sendResult := (s.st a).cancelledResult
      wait := none, lastWait := if (s.st a).wait.isSome then .cancelled else (s.st a).lastWait
      ring := { (s.st a).ring with
        state := if s.delivering a = true ∧ (s.st a).ring.state = .disabling then .disabled else (s.st a).ring.state }
      pendingFlags := 0, inService := [] } := by
  rw [State.withdrawn, State.st_modSt_same, abandonDelivery_own (by rwa [leaving_bown]), leaving_delivering,
    State.leaving_eq, leaveWait_own, roomless_own agrees still]
  rfl

/-- RETIRE with no copy in flight is OFFLINE entry from the quiescence event. -/
theorem enterQuiescing_of_still (free : s.bown = false) (agrees : s.RoomQueueAgrees)
    (still : (s.st a).send.isCopying = false) : enterQuiescing a s = enterOffline a (s.withdrawn a) := by
  rw [enterQuiescing_eq]
  exact if_pos ⟨by rw [withdrawn_own free agrees still], by rw [withdrawn_own free agrees still]; rfl,
    withdrawn_delivering free⟩

theorem withdrawn_frame (s : State) (a : StationId) : (s.withdrawn a).supervisor = s.supervisor ∧
    (s.withdrawn a).cellStore = s.cellStore ∧ (s.withdrawn a).burst = s.burst ∧
    (s.withdrawn a).responseLimit = s.responseLimit ∧ (s.withdrawn a).retryBudget = s.retryBudget ∧
    (s.withdrawn a).burstLimit = s.burstLimit ∧ (s.withdrawn a).tickDiv = s.tickDiv ∧
    (s.withdrawn a).tickCount = s.tickCount := by
  simp [State.withdrawn, State.leaving]

theorem withdrawn_engine (s : State) (a : StationId) :
    (s.delivering a = false → (s.withdrawn a).engine = s.engine ∧ (s.withdrawn a).gap = s.gap ∧
      (s.withdrawn a).rrPointer = s.rrPointer) ∧
    (s.bown = false → s.delivering a = true → (s.withdrawn a).gap = true ∧ (s.withdrawn a).bown = false) := by
  refine ⟨fun undelivering => ?_, fun free delivering => ?_⟩
  · have same : abandonDelivery a (s.leaving a) = s.leaving a := abandonDelivery_of_none (by rwa [leaving_delivering])
    rw [State.withdrawn, same]
    simp [State.leaving]
  · exact abandonDelivery_dropped (a := a) (s := s.leaving a) (by rwa [leaving_bown]) (by rwa [leaving_delivering])

theorem withdrawn_roomQueue (s : State) (a : StationId) : (s.withdrawn a).roomQueue = (s.roomless a).roomQueue := by
  simp [State.withdrawn, State.leaving_eq]

/-- The other stations keep these while a station leaves. -/
theorem withdrawn_other (other : b ≠ a) : ((s.withdrawn a).st b).state = (s.st b).state ∧
    ((s.withdrawn a).st b).queues = (s.st b).queues ∧ ((s.withdrawn a).st b).readSlot = (s.st b).readSlot ∧
    ((s.withdrawn a).st b).ring = (s.st b).ring ∧ ((s.withdrawn a).st b).limits = (s.st b).limits ∧
    ((s.withdrawn a).st b).staging = (s.st b).staging ∧ ((s.withdrawn a).st b).sendTag = (s.st b).sendTag ∧
    ((s.withdrawn a).st b).result = (s.st b).result ∧ ((s.withdrawn a).st b).supOperand = (s.st b).supOperand ∧
    ((s.withdrawn a).st b).seqCounter = (s.st b).seqCounter ∧
    ((s.withdrawn a).st b).roomWaitLimit = (s.st b).roomWaitLimit ∧
    ((s.withdrawn a).st b).lockWaitLimit = (s.st b).lockWaitLimit ∧ ((s.withdrawn a).st b).enables = (s.st b).enables ∧
    ((s.withdrawn a).st b).disarm = (s.st b).disarm ∧ ((s.withdrawn a).st b).levels = (s.st b).levels ∧
    ((s.withdrawn a).st b).vectorBase = (s.st b).vectorBase ∧ ((s.withdrawn a).st b).inService = (s.st b).inService := by
  simp [State.withdrawn, State.leaving, other]

theorem withdrawn_sendResult (agrees : s.RoomQueueAgrees) (still : (s.st a).send.isCopying = false) (other : b ≠ a) :
    ((s.withdrawn a).st b).sendResult = (s.st b).sendResult := by
  rw [← roomless_sendResult agrees still other]
  simp [State.withdrawn, State.leaving_eq, other]

/-- The locks at the quiescence event: the pledged one is HELD again, and the station has left its waiter list. -/
theorem withdrawn_lock (agrees : s.RoomQueueAgrees) (waiters : s.WaitersAgree) (placed : s.MessagesPlaced)
    (still : (s.st a).send.isCopying = false) (l : LockId) : (s.withdrawn a).lock l =
      { state := if (s.lock l).state = .pledged a then .held a else (s.lock l).state
        waiters := (s.lock l).waiters.erase a } := by
  have left := leaveWait_lock a .cancelled (s.roomless a) l
  rw [← State.leaving_eq, roomless_lock agrees placed still] at left
  have same : (s.withdrawn a).lock l = (s.leaving a).lock l := by simp [State.withdrawn]
  rw [same]
  have list : ((s.leaving a).lock l).waiters = (s.lock l).waiters.erase a := by
    rw [left.2]
    split
    · rfl
    · rename_i away
      have unlisted : a ∉ (s.lock l).waiters := fun mem => away (by
        have waits := (waiters.2.1 a l).mp mem
        simpa [State.waitsFor, State.roomless] using waits)
      exact (List.erase_of_not_mem unlisted).symm
  simp only at left
  rw [← left.1, ← list]
end

end Sys2Proof.Machine
end

section
/-! RETIRE with no copy in flight (O12): the record of the station, the others, and the locks. -/

namespace Sys2Proof.Machine

-- One proof at a time: many at once take more threads than the check allows.
set_option Elab.async false

/-- The state after RETIRE of a station with no copy in flight. -/
def State.retired (s : State) (a : StationId) : State := answered a 0x02 .ok (enterOffline a (s.withdrawn a))

section
variable {a b : StationId} {l : LockId} {s : State}

theorem exec_retire_of_still (free : s.bown = false) (online : (s.st a).state = .online)
    (still : (s.st a).send.isCopying = false) (agrees : s.RoomQueueAgrees) :
    exec (.retire a) s = .next (s.retired a) := by
  rw [exec_retire free online, enterQuiescing_of_still free agrees still, State.retired]

/-- The record of the station after its RETIRE. -/
theorem retired_own (free : s.bown = false) (still : (s.st a).send.isCopying = false) (agrees : s.RoomQueueAgrees)
    (waiters : s.WaitersAgree) : (s.retired a).st a =
      { s.st a with
        state := .offline, result := { code := .ok, command := 0x02 }, send := .idle
        sendResult := (s.st a).cancelledResult
        queues := Vector.replicate 4 [], readSlot := none, confirms := [], confirmOverflow := false, wait := none
        lastWait := if (s.st a).wait.isSome then .cancelled else (s.st a).lastWait
        ring := { (s.st a).ring with state := .disabled }, pendingFlags := 0, inService := [] } := by
  have own := withdrawn_own free agrees still
  rw [State.retired, answered, (written_reads _).1, State.st_modSt_same,
    enterOffline_own (withdrawn_keeps_waitersAgree waiters a) (by rw [own]; simp) (by rw [own]) (by rw [own]), own]

theorem retired_other (still : (s.st a).send.isCopying = false) (agrees : s.RoomQueueAgrees) (other : b ≠ a) :
    ((s.retired a).st b).state = (s.st b).state ∧ ((s.retired a).st b).queues = (s.st b).queues ∧
    ((s.retired a).st b).readSlot = (s.st b).readSlot ∧ ((s.retired a).st b).ring = (s.st b).ring ∧
    ((s.retired a).st b).limits = (s.st b).limits ∧ ((s.retired a).st b).staging = (s.st b).staging ∧
    ((s.retired a).st b).sendTag = (s.st b).sendTag ∧ ((s.retired a).st b).result = (s.st b).result ∧
    ((s.retired a).st b).supOperand = (s.st b).supOperand ∧ ((s.retired a).st b).sendResult = (s.st b).sendResult ∧
    ((s.retired a).st b).seqCounter = (s.st b).seqCounter ∧
    ((s.retired a).st b).roomWaitLimit = (s.st b).roomWaitLimit ∧
    ((s.retired a).st b).lockWaitLimit = (s.st b).lockWaitLimit ∧ ((s.retired a).st b).enables = (s.st b).enables ∧
    ((s.retired a).st b).disarm = (s.st b).disarm ∧ ((s.retired a).st b).levels = (s.st b).levels ∧
    ((s.retired a).st b).vectorBase = (s.st b).vectorBase ∧ ((s.retired a).st b).inService = (s.st b).inService := by
  have kept := withdrawn_other (s := s) other
  have result := withdrawn_sendResult agrees still other
  have entered := enterOffline_other (s := s.withdrawn a) other
  rw [State.retired, answered_other _ _ _ _ other]
  simp [entered, kept, result]

theorem retired_frame (s : State) (a : StationId) : (s.retired a).supervisor = s.supervisor ∧
    (s.retired a).cellStore = s.cellStore ∧ (s.retired a).burst = s.burst ∧
    (s.retired a).responseLimit = s.responseLimit ∧ (s.retired a).retryBudget = s.retryBudget ∧
    (s.retired a).burstLimit = s.burstLimit ∧ (s.retired a).tickDiv = s.tickDiv ∧
    (s.retired a).tickCount = s.tickCount := by
  simp [State.retired, withdrawn_frame, answered, written]

theorem retired_engine (s : State) (a : StationId) : (s.retired a).engine = (s.withdrawn a).engine ∧
    (s.retired a).gap = (s.withdrawn a).gap ∧ (s.retired a).rrPointer = (s.withdrawn a).rrPointer := by
  simp [State.retired, answered, written]

theorem retired_unentered (s : State) (a : StationId) : ∀ e ∈ (s.retired a).roomQueue, e.station ≠ a := by
  have unentered : ∀ e ∈ (s.withdrawn a).roomQueue, e.station ≠ a := by
    rw [withdrawn_roomQueue]
    exact roomless_unentered s a
  simpa [State.retired] using enterOffline_unentered unentered

/-! ### The locks -/

/-- No lock is left to the station, HELD by it or waited for. -/
theorem retired_unlocked (free : s.bown = false) (still : (s.st a).send.isCopying = false) (agrees : s.RoomQueueAgrees)
    (waiters : s.WaitersAgree) (l : LockId) : ((s.retired a).lock l).state ≠ .held a ∧
      a ∉ ((s.retired a).lock l).waiters := by
  have own := withdrawn_own free agrees still
  have away : ((s.withdrawn a).st a).state ≠ .online := by rw [own]; simp
  have same : (s.retired a).lock l = (enterOffline a (s.withdrawn a)).lock l := by simp [State.retired]
  have unwaiting : ((s.retired a).st a).wait = none := by rw [retired_own free still agrees waiters]
  rw [same]
  refine ⟨?_, fun mem => ?_⟩
  · rw [enterOffline_lock]
    exact releaseHoldings_lock a _ (by simp [purge]) l
  · have entered := enterOffline_keeps_waitersAgree (withdrawn_keeps_waitersAgree waiters a) away
    have waits := (entered.2.1 a l).mp mem
    have none_waits : ((enterOffline a (s.withdrawn a)).st a).wait = none := by simpa [State.retired] using unwaiting
    simp [none_waits] at waits

/-- A lock that no message for the station carries outlives its purge. -/
theorem withdrawn_purge_lock (agrees : s.RoomQueueAgrees) (waiters : s.WaitersAgree) (placed : s.MessagesPlaced)
    (conserved : s.StoreConserved) (still : (s.st a).send.isCopying = false)
    (uncarried : ∀ d m, (s.lock l).state = .carried d → s.msg d = some m → m.dest ≠ a) :
    (purge a ((s.withdrawn a).modSt a fun r => { r with state := .offline })).lock l = (s.withdrawn a).lock l := by
  have right : s.PlacesRight := s.placed_view_iff.mpr ⟨conserved.descsFree, placed⟩
  have right' : ((s.withdrawn a).modSt a fun r => { r with state := .offline }).PlacesRight :=
    State.Placed.frame (withdrawn_keeps_places right a) (.modSt _ a _)
  have conserved' : ((s.withdrawn a).modSt a fun r => { r with state := .offline }).StoreConserved :=
    State.StoreConserved.modSt (withdrawn_keeps_storeConserved conserved a)
  refine purge_lock_of_uncarried conserved' right' fun d held carried => ?_
  have held' : d ∈ (s.st a).heldMessages := by
    simpa [State.withdrawn, State.leaving, StationRec.heldMessages, StationRec.queue, StationRec.silence] using held
  rw [State.modSt_lock, withdrawn_lock agrees waiters placed still] at carried
  have carried' : (s.lock l).state = .carried d := by
    dsimp only at carried
    split at carried
    · cases carried
    · exact carried
  rcases StationRec.mem_heldMessages.mp held' with ⟨c, queued⟩ | ⟨slot, read, rfl⟩
  · obtain ⟨m, hm, dest, -, -⟩ := (placed.queued a c).2 d queued
    exact uncarried d m carried' hm dest
  · obtain ⟨m, hm, dest, -, -⟩ := placed.reading a slot read
    exact uncarried slot.desc m carried' hm dest

theorem retired_lock_of_owned (free : s.bown = false) (still : (s.st a).send.isCopying = false)
    (agrees : s.RoomQueueAgrees) (waiters : s.WaitersAgree) (placed : s.MessagesPlaced) (conserved : s.StoreConserved)
    (owned : (s.lock l).state = .held a ∨ (s.lock l).state = .pledged a) :
    ((s.lock l).waiters.erase a = [] → (s.retired a).lock l = { state := .free, waiters := [] }) ∧
    ∀ w rest, (s.lock l).waiters.erase a = w :: rest →
      (s.retired a).lock l = { state := .held w, waiters := rest } ∧ (s.retired a).GrantedTo w := by
  have own := withdrawn_own free agrees still
  have away : ((s.withdrawn a).st a).state ≠ .online := by rw [own]; simp
  have lock := withdrawn_lock agrees waiters placed still l
  have held : ((s.withdrawn a).lock l).state = .held a := by
    rw [lock]
    rcases owned with held | pledged
    · simp [held]
    · simp [pledged]
  have unlisted : a ∉ ((s.withdrawn a).lock l).waiters := by
    rw [lock]
    exact (waiters.1 l).not_mem_erase
  have purged := withdrawn_purge_lock (l := l) agrees waiters placed conserved still fun d m carried => by
    rcases owned with held | pledged
    · simp [held] at carried
    · simp [pledged] at carried
  obtain ⟨freed, given⟩ := enterOffline_lock_of_held (withdrawn_keeps_waitersAgree waiters a) away unlisted purged held
  rw [lock] at freed given
  have same : (s.retired a).lock l = (enterOffline a (s.withdrawn a)).lock l := by simp [State.retired]
  rw [same]
  refine ⟨freed, fun w rest list => ?_⟩
  obtain ⟨passed, granted⟩ := given w rest list
  exact ⟨passed, granted.of_reads (by simp [State.retired]) (by simp [State.retired]) (by simp [State.retired])
    (by simp [State.retired])⟩

theorem retired_lock_of_strange (agrees : s.RoomQueueAgrees) (waiters : s.WaitersAgree) (placed : s.MessagesPlaced)
    (conserved : s.StoreConserved) (still : (s.st a).send.isCopying = false) (not_held : (s.lock l).state ≠ .held a)
    (not_pledged : (s.lock l).state ≠ .pledged a)
    (uncarried : ∀ d m, (s.lock l).state = .carried d → s.msg d = some m → m.dest ≠ a) :
    (s.retired a).lock l = { state := (s.lock l).state, waiters := (s.lock l).waiters.erase a } := by
  have purged := withdrawn_purge_lock agrees waiters placed conserved still uncarried
  have lock := withdrawn_lock agrees waiters placed still l
  rw [if_neg not_pledged] at lock
  have same : (s.retired a).lock l = (enterOffline a (s.withdrawn a)).lock l := by simp [State.retired]
  rw [same, enterOffline_lock, releaseHoldings_lock_of_not_held (by rw [purged, lock]; exact not_held), purged, lock]
end

/-- Settles O12: the state at the quiescence event, and OFFLINE entry from it. -/
theorem retireWithNoCopyInFlight : Obligations.RetireWithNoCopyInFlight := by
  intro a s free online still agrees waiters
  have own := retired_own free still agrees waiters
  refine ⟨s.retired a, exec_retire_of_still free online still agrees, fun c => ?_, ?_,
    retired_unlocked free still agrees waiters, ?_, retired_unentered s a, fun b other => retired_other still agrees other,
    fun undelivering => ?_, fun delivering => ?_, fun placed conserved l ws list => ⟨fun owned => ?_, fun not_held
      not_pledged uncarried => ?_⟩, retired_frame s a⟩
  · rw [own]
    simp [StationRec.queue, entry]
  · have queues : ((s.retired a).st a).queues = Vector.replicate 4 [] := by rw [own]
    rw [queues]
    exact own
  · rw [State.delivering_congr (s := s.withdrawn a) (by rw [(retired_engine s a).1]) a]
    exact withdrawn_delivering free
  · obtain ⟨engine, gap, pointer⟩ := retired_engine s a
    rw [engine, gap, pointer]
    exact (withdrawn_engine s a).1 undelivering
  · obtain ⟨engine, gap, -⟩ := retired_engine s a
    obtain ⟨gap', free'⟩ := (withdrawn_engine s a).2 free delivering
    exact ⟨gap.trans gap', by rw [State.bown, engine]; exact free'⟩
  · subst list
    obtain ⟨freed, given⟩ := retired_lock_of_owned free still agrees waiters placed conserved owned
    refine ⟨freed, fun w rest list => ?_⟩
    obtain ⟨passed, -, unwaiting, granted, flag⟩ := given w rest list
    exact ⟨passed, unwaiting, granted, flag⟩
  · subst list
    exact retired_lock_of_strange agrees waiters placed conserved still not_held not_pledged uncarried

end Sys2Proof.Machine
end

section
/-! A run of DISCARDED ends with no post waiting for room (O13): what it leaves in the store, in the counts, in the
confirmation lists and in a lock that one of the messages carries. -/

namespace Sys2Proof.Machine

-- One proof at a time: many at once take more threads than the check allows.
set_option Elab.async false

section
variable {records : DescId → Option Message} {ds : List DescId} {d x : DescId} {s : State}

/-- No post waits for room, and the descriptors `ds` hold the given records, which tell all but the message states. -/
structure Discards (records : DescId → Option Message) (ds : List DescId) (s : State) : Prop where
  none_waits : s.roomQueue = []
  nodup : ds.Nodup
  held : ∀ d ∈ ds, ∃ m st, records d = some m ∧ s.msg d = some { m with state := st }

/-- With no post waiting the end of a message is its first three steps and the return of its room (R82). -/
theorem endMessage_of_none_waits {m : Message} {st : MessageState} (none_waits : s.roomQueue = [])
    (hm : s.msg d = some { m with state := st }) : endMessage .discarded d s =
      (confirmEnd .discarded m (disposeLock .discarded m s)).freed d m := by
  rw [endMessage_of_msg hm]
  exact (roomQueueExamination _).1 (by simpa using none_waits)

theorem Discards.head (h : Discards records (d :: ds) s) : ∃ m, records d = some m ∧
    endMessage .discarded d s = (confirmEnd .discarded m (disposeLock .discarded m s)).freed d m := by
  obtain ⟨m, st, record, hm⟩ := h.held d List.mem_cons_self
  exact ⟨m, record, endMessage_of_none_waits h.none_waits hm⟩

/-- The other records outlast the end of a message. -/
theorem Discards.msg_other (h : Discards records (d :: ds) s) (ne : x ≠ d) :
    (endMessage .discarded d s).msg x = s.msg x := by
  obtain ⟨m, -, ends⟩ := h.head
  rw [ends, State.freed_msg_ne _ _ ne]
  simp

theorem Discards.tail (h : Discards records (d :: ds) s) : Discards records ds (endMessage .discarded d s) := by
  obtain ⟨fresh, nodup⟩ := List.nodup_cons.mp h.nodup
  obtain ⟨m, -, ends⟩ := h.head
  refine ⟨by rw [ends]; simpa using h.none_waits, nodup, fun e mem => ?_⟩
  obtain ⟨n, st, record, hn⟩ := h.held e (List.mem_cons_of_mem d mem)
  exact ⟨n, st, record, by rw [h.msg_other fun same => fresh (same ▸ mem), hn]⟩

theorem discardAll_cons (d : DescId) (ds : List DescId) (s : State) :
    discardAll (d :: ds) s = discardAll ds (endMessage .discarded d s) := rfl

/-! ### The store and the counts -/

theorem discardAll_freeDescs (h : Discards records ds s) : (discardAll ds s).freeDescs = s.freeDescs ++ ds := by
  induction ds generalizing s with
  | nil => simp [discardAll]
  | cons d rest ih =>
    obtain ⟨m, -, ends⟩ := h.head
    rw [discardAll_cons, ih h.tail, ends]
    simp

theorem discardAll_freeCells (h : Discards records ds s) : (discardAll ds s).freeCells =
    s.freeCells ++ ds.flatMap fun d => ((records d).map (·.cells)).getD [] := by
  induction ds generalizing s with
  | nil => simp [discardAll]
  | cons d rest ih =>
    obtain ⟨m, record, ends⟩ := h.head
    rw [discardAll_cons, ih h.tail, ends]
    simp [record]

theorem discardAll_msg (h : Discards records ds s) (x : DescId) :
    (discardAll ds s).msg x = if x ∈ ds then none else s.msg x := by
  induction ds generalizing s with
  | nil => simp [discardAll]
  | cons d rest ih =>
    rw [discardAll_cons, ih h.tail]
    by_cases own : x = d
    · subst own
      obtain ⟨m, -, ends⟩ := h.head
      simp [ends]
    · simp [own, h.msg_other own]

theorem releaseCount_chan (c k : ChannelId) (s : State) : (releaseCount k s).chan c =
    { s.chan c with count := (s.chan c).count - if k = c then 1 else 0 } := by
  by_cases own : k = c
  · subst own; simp [releaseCount]
  · simp [releaseCount, own, Ne.symm own]

theorem discardAll_chan (h : Discards records ds s) (c : ChannelId) : (discardAll ds s).chan c =
    { s.chan c with
      count := (s.chan c).count - ds.countP fun d => (records d).any fun m => m.channel == c } := by
  induction ds generalizing s with
  | nil => simp [discardAll]
  | cons d rest ih =>
    obtain ⟨m, record, ends⟩ := h.head
    rw [discardAll_cons, ih h.tail, ends, State.freed_chan, releaseCount_chan, List.countP_cons]
    simp [record, Nat.sub_sub, Nat.add_comm]

/-! ### The confirmations -/

/-- The confirmation of a DISCARDED message to station `b`, where it is due one. -/
def Message.discardedFor (m : Message) (b : StationId) : Option Confirmation :=
  if m.confirm = true ∧ m.source = b then
    some { channel := m.channel, sequence := m.sequence, outcome := .discarded }
  else none

/-- What one confirmation, due or not, leaves in the list of an ONLINE station. -/
theorem confirmEnd_discarded {m : Message} {b : StationId} (online : (s.st b).state = .online)
    (short : (s.st b).confirms.length ≤ 16) :
    ((confirmEnd .discarded m s).st b).confirms = ((s.st b).confirms ++ (m.discardedFor b).toList).take 16 ∧
    ((confirmEnd .discarded m s).st b).confirmOverflow =
      ((s.st b).confirmOverflow || decide (16 < (s.st b).confirms.length + (m.discardedFor b).toList.length)) ∧
    ((m.discardedFor b).toList ≠ [] → (s.st b).confirms.length < 16 →
      ((confirmEnd .discarded m s).st b).pendingFlags.getLsbD 6 = true) := by
  have full : (s.st b).confirms.take 16 = (s.st b).confirms := List.take_of_length_le short
  by_cases due : m.confirm = true ∧ m.source = b
  · obtain ⟨yes, rfl⟩ := due
    obtain ⟨offered, dropped⟩ := confirmEnd_source .discarded yes online
    rw [Message.discardedFor, if_pos ⟨yes, rfl⟩]
    rcases Nat.lt_or_ge (s.st m.source).confirms.length 16 with room | none_left
    · obtain ⟨flag, confirms, overflow, -⟩ := offered room
      rw [confirms, overflow]
      refine ⟨(List.take_of_length_le (by simpa using room)).symm, ?_, fun _ _ => flag⟩
      simpa using fun full' => absurd full' (Nat.not_le.mpr room)
    · obtain ⟨-, confirms, overflow, -⟩ := dropped none_left
      rw [confirms, overflow]
      refine ⟨?_, by simpa using .inr none_left, fun _ room => absurd room (Nat.not_lt.mpr none_left)⟩
      rw [List.take_append_of_le_length none_left, full]
  · have same : (confirmEnd .discarded m s).st b = s.st b := by
      by_cases own : b = m.source
      · subst own
        rw [confirmEnd_of_no (.inl (by simpa using due))]
      · rw [confirmEnd_other _ own]
    rw [same, Message.discardedFor, if_neg due]
    simp [full, short]

theorem take_append_take {α : Type} (n : Nat) (xs ys : List α) : (xs.take n ++ ys).take n = (xs ++ ys).take n := by
  rw [List.take_append, List.take_append, List.take_take, Nat.min_self, List.length_take]
  congr 2
  omega

/-- The flag of a source stays set while a station's wait may be granted. -/
theorem handoff_flag {b : StationId} {i : Nat} (l : LockId) (set : (s.st b).pendingFlags.getLsbD i = true) :
    ((handoff l s).st b).pendingFlags.getLsbD i = true := by
  have among : ∀ (ws : List StationId) (t : State), (t.st b).pendingFlags.getLsbD i = true →
      ((handoffAmong l ws t).st b).pendingFlags.getLsbD i = true := by
    intro ws
    induction ws with
    | nil => exact fun _ ht => ht
    | cons w rest ih =>
      intro t ht
      rw [handoffAmong]
      split
      · exact setSource_flag _ _ (by simpa using ht)
      · exact ih _ (by simpa using ht)
  exact among _ s set

theorem discardAll_flag {b : StationId} {i : Nat} (ds : List DescId) (set : (s.st b).pendingFlags.getLsbD i = true) :
    ((discardAll ds s).st b).pendingFlags.getLsbD i = true :=
  discardAll_keeps (P := fun t => (t.st b).pendingFlags.getLsbD i = true) (fun l _ ht => handoff_flag l ht)
    (fun m _ ht => confirmEnd_flag .discarded m ht) (fun _ _ _ ht => ht) (fun _ ht => by simpa using ht) ds set

/-- What the ends leave in the confirmation list of an ONLINE station: its entries in order, up to 16. -/
theorem discardAll_confirms {b : StationId} (h : Discards records ds s) (online : (s.st b).state = .online)
    (short : (s.st b).confirms.length ≤ 16) (mine : List Confirmation)
    (due : mine = ds.filterMap fun d => (records d).bind fun m => m.discardedFor b) :
    ((discardAll ds s).st b).confirms = ((s.st b).confirms ++ mine).take 16 ∧
    ((discardAll ds s).st b).confirmOverflow =
      ((s.st b).confirmOverflow || decide (16 < (s.st b).confirms.length + mine.length)) ∧
    (mine ≠ [] → (s.st b).confirms.length < 16 → ((discardAll ds s).st b).pendingFlags.getLsbD 6 = true) := by
  induction ds generalizing s mine with
  | nil =>
    obtain rfl : mine = [] := due
    simp [discardAll, List.take_of_length_le short, short]
  | cons d rest ih =>
    obtain ⟨m, record, ends⟩ := h.head
    have disposed : ((disposeLock .discarded m s).st b).state = .online ∧
        ((disposeLock .discarded m s).st b).confirms = (s.st b).confirms ∧
        ((disposeLock .discarded m s).st b).confirmOverflow = (s.st b).confirmOverflow := by simp [online]
    obtain ⟨online', same, overflow'⟩ := disposed
    obtain ⟨confirms, overflow, flag⟩ := confirmEnd_discarded (m := m) online' (by rwa [same])
    rw [same, overflow'] at overflow
    rw [same] at confirms flag
    have step : (endMessage .discarded d s).st b = (confirmEnd .discarded m (disposeLock .discarded m s)).st b := by
      rw [ends]; rfl
    rw [← step] at confirms overflow flag
    obtain ⟨confirms', overflow', flag'⟩ := ih h.tail (by simpa using online)
      (by rw [confirms, List.length_take]; omega) _ rfl
    have split : mine = (m.discardedFor b).toList ++
        rest.filterMap fun d => (records d).bind fun m => m.discardedFor b := by
      rw [due, List.filterMap_cons, record, Option.bind_some]
      cases m.discardedFor b <;> rfl
    rw [discardAll_cons, split]
    refine ⟨?_, ?_, fun some_due room => ?_⟩
    · rw [confirms', confirms, take_append_take, List.append_assoc]
    · rw [overflow', overflow, confirms, Bool.or_assoc]
      congr 1
      simp only [List.length_take, List.length_append, ← Bool.decide_or]
      congr 1
      simp only [eq_iff_iff]
      omega
    · cases own : m.discardedFor b with
      | some e => exact discardAll_flag rest (flag (by simp [own]) room)
      | none =>
        refine flag' (by simpa [own] using some_due) ?_
        rw [confirms, own]
        simpa using room

/-- A station that is not ONLINE is not confirmed to (R86). -/
theorem discardAll_unconfirmed {b : StationId} (away : (s.st b).state ≠ .online) (ds : List DescId) :
    ((discardAll ds s).st b).confirms = (s.st b).confirms ∧
    ((discardAll ds s).st b).confirmOverflow = (s.st b).confirmOverflow := by
  have kept := discardAll_keeps (s := s) (P := fun t => (t.st b).state ≠ .online ∧
      (t.st b).confirms = (s.st b).confirms ∧ (t.st b).confirmOverflow = (s.st b).confirmOverflow)
    (fun l t ht => by simpa using ht) (fun m t ht => by
      have same : (confirmEnd .discarded m t).st b = t.st b := by
        by_cases own : b = m.source
        · subst own
          rw [confirmEnd_of_no (.inr ht.1)]
        · exact confirmEnd_other _ own
      rwa [same]) (fun _ _ _ ht => ht) (fun t ht => by simpa using ht) ds ⟨away, rfl, rfl⟩
  exact kept.2

/-! ### The lock of one of the messages -/

theorem Discards.lock_of_uncarried {l : LockId} (h : Discards records (d :: ds) s)
    (other : ∀ m, records d = some m → m.carriedLock ≠ some l) : (endMessage .discarded d s).lock l = s.lock l := by
  obtain ⟨m, st, record, hm⟩ := h.held d List.mem_cons_self
  exact endMessage_lock_of_uncarried hm (other m record)

theorem discards_lock_of_uncarried {l : LockId} (h : Discards records ds s)
    (uncarried : ∀ d ∈ ds, ∀ m, records d = some m → m.carriedLock ≠ some l) : (discardAll ds s).lock l = s.lock l := by
  induction ds generalizing s with
  | nil => rfl
  | cons d rest ih =>
    rw [discardAll_cons, ih h.tail fun e mem => uncarried e (List.mem_cons_of_mem d mem),
      h.lock_of_uncarried (uncarried d List.mem_cons_self)]

/-- The lock that just one of the messages carries is handed off once. -/
theorem discardAll_lock_of_carried {l : LockId} {m : Message} (h : Discards records ds s) (mem : d ∈ ds)
    (record : records d = some m) (carries : m.carriedLock = some l)
    (alone : ∀ e ∈ ds, e ≠ d → ∀ n, records e = some n → n.carriedLock ≠ some l) :
    (s.present (s.lock l).waiters = [] → (discardAll ds s).lock l = { state := .free, waiters := [] }) ∧
    ∀ w more, s.present (s.lock l).waiters = w :: more →
      ((discardAll ds s).lock l).state = .held w ∧ (discardAll ds s).GrantedTo w := by
  induction ds generalizing s with
  | nil => simp at mem
  | cons e rest ih =>
    obtain ⟨fresh, -⟩ := List.nodup_cons.mp h.nodup
    rw [discardAll_cons]
    by_cases own : d = e
    · subst own
      obtain ⟨n, again, ends⟩ := h.head
      obtain rfl : m = n := by simpa [record] using again
      have left : (discardAll rest (endMessage .discarded d s)).lock l = (handoff l s).lock l := by
        rw [discards_lock_of_uncarried h.tail fun e mem => alone e (List.mem_cons_of_mem d mem) fun same =>
          fresh (same ▸ mem), ends, disposeLock_discarded_of_some carries]
        simp
      rw [left]
      refine ⟨handoffAmong_of_none_present, fun w more first => ?_⟩
      obtain ⟨held, granted⟩ := handoffAmong_of_present (l := l) first
      refine ⟨held, State.GrantedTo.discardAll ?_ rest⟩
      rw [ends, disposeLock_discarded_of_some carries]
      have handed : (handoff l s).GrantedTo w := granted
      exact handed.of_reads (by simp) (by simp) (by simp) (confirmEnd_flag .discarded m)
    · have same := h.lock_of_uncarried fun n record => alone e List.mem_cons_self (Ne.symm own) n record
      have there : (endMessage .discarded e s).present ((endMessage .discarded e s).lock l).waiters =
          s.present (s.lock l).waiters := by
        rw [same, State.present_congr (s := s) (by simp)]
      rw [← there]
      exact ih h.tail ((List.mem_cons.mp mem).resolve_left own) fun x inside => alone x (List.mem_cons_of_mem e inside)
end

end Sys2Proof.Machine
end

section
/-! OFFLINE entry with messages held and no post waiting for room (O13). -/

namespace Sys2Proof.Machine

-- One proof at a time: many at once take more threads than the check allows.
set_option Elab.async false

section
variable {a b : StationId} {l : LockId} {s : State}

/-! ### The quiescence event of a station with no room wait -/

theorem withdrawn_of_no_entry (none_own : ∀ e ∈ s.roomQueue, e.station ≠ a) :
    s.withdrawn a = (abandonDelivery a (s.waitless a)).modSt a StationRec.silence := by
  rw [State.withdrawn, State.leaving_of_no_entry none_own, ← State.waitless]

/-- The state whose messages held by station `a` are on their way out. -/
def State.emptied (s : State) (a : StationId) : State :=
  ((s.withdrawn a).modSt a fun r => { r with state := .offline }).modSt a fun r =>
    { r with queues := Vector.replicate 4 [], readSlot := none }

theorem emptied_state (s : State) (a : StationId) : ((s.emptied a).st a).state = .offline := by simp [State.emptied]

theorem purge_withdrawn (s : State) (a : StationId) :
    purge a ((s.withdrawn a).modSt a fun r => { r with state := .offline }) =
      discardAll (s.st a).heldMessages (s.emptied a) := by
  have held : (((s.withdrawn a).modSt a fun r => { r with state := .offline }).st a).heldMessages =
      (s.st a).heldMessages := by
    simp [State.withdrawn, State.leaving, StationRec.heldMessages, StationRec.queue, StationRec.silence]
  rw [purge, held, State.emptied]

theorem emptied_other (none_waits : s.roomQueue = []) (other : b ≠ a) : (s.emptied a).st b = s.st b := by
  simp [State.emptied, withdrawn_of_no_entry (a := a) (s := s) (by simp [none_waits]), waitless_other other, other]

theorem emptied_frame (none_waits : s.roomQueue = []) (a : StationId) : (s.emptied a).freeDescs = s.freeDescs ∧
    (s.emptied a).freeCells = s.freeCells ∧ (s.emptied a).channels = s.channels ∧ (s.emptied a).roomQueue = [] := by
  simp [State.emptied, withdrawn_of_no_entry (a := a) (s := s) (by simp [none_waits]), waitless_frame, none_waits]

theorem emptied_lock (none_waits : s.roomQueue = []) (l : LockId) : ((s.emptied a).lock l).waiters =
    if (s.st a).wait.map (·.lock) = some l then (s.lock l).waiters.erase a else (s.lock l).waiters := by
  simp [State.emptied, withdrawn_of_no_entry (a := a) (s := s) (by simp [none_waits]), waitless_lock]

/-- The records are those from before but for the message states of an abandoned and a started delivery. -/
theorem emptied_msg (none_waits : s.roomQueue = []) {d : DescId} {m : Message} (hm : s.msg d = some m) :
    ∃ st, (s.emptied a).msg d = some { m with state := st } := by
  have same : (s.emptied a).msg d = (abandonDelivery a (s.waitless a)).msg d := by
    rw [State.emptied, withdrawn_of_no_entry (by simp [none_waits])]
    simp
  have read := abandonDelivery_readMsg (g := fun m => { m with state := .queued }) (fun _ _ => rfl) a (s.waitless a) d
  have before : (s.waitless a).msg d = some m := by rw [State.msg, waitless_messages]; exact hm
  rw [State.readMsg, State.readMsg, before] at read
  obtain ⟨n, hn, stateless⟩ := Option.map_eq_some_iff.mp read
  refine ⟨n.state, same.trans (hn.trans (congrArg some ?_))⟩
  obtain ⟨_⟩ := n
  obtain ⟨_⟩ := m
  simpa using stateless

theorem discards_emptied (none_waits : s.roomQueue = []) (nodup : (s.st a).heldMessages.Nodup)
    (used : ∀ d ∈ (s.st a).heldMessages, (s.msg d).isSome = true) :
    Discards s.msg (s.st a).heldMessages (s.emptied a) where
  none_waits := (emptied_frame none_waits a).2.2.2
  nodup := nodup
  held d mem := by
    obtain ⟨m, hm⟩ := Option.isSome_iff_exists.mp (used d mem)
    obtain ⟨st, hn⟩ := emptied_msg (a := a) none_waits hm
    exact ⟨m, st, hm, hn⟩

/-! ### RETIRE of an IDLE station -/

theorem exec_retire_of_idle (free : s.bown = false) (online : (s.st a).state = .online) (idle : (s.st a).send = .idle)
    (none_waits : s.roomQueue = []) : exec (.retire a) s = .next (s.retired a) := by
  have quiescing : ((s.withdrawn a).st a).state = .quiescing := by
    simp [State.withdrawn, StationRec.silence, leaving_state]
  have still : ((s.withdrawn a).st a).send = .idle := by
    rw [withdrawn_of_no_entry (by simp [none_waits])]
    simp [State.waitless, StationRec.silence, idle]
  have quiet : quiesce a (s.withdrawn a) = enterOffline a (s.withdrawn a) :=
    if_pos ⟨quiescing, by simp [still, SendState.isCopying], withdrawn_delivering free⟩
  rw [exec_retire free online, enterQuiescing_eq, quiet, State.retired]

/-- What RETIRE leaves, seen from the end of the purge. -/
theorem retired_purged (s : State) (a : StationId) :
    (s.retired a).freeDescs = (discardAll (s.st a).heldMessages (s.emptied a)).freeDescs ∧
    (s.retired a).freeCells = (discardAll (s.st a).heldMessages (s.emptied a)).freeCells ∧
    (∀ d, (s.retired a).msg d = (discardAll (s.st a).heldMessages (s.emptied a)).msg d) ∧
    (∀ c, (s.retired a).chan c = (discardAll (s.st a).heldMessages (s.emptied a)).chan c) ∧
    (∀ l, (s.retired a).lock l =
      (releaseHoldings a (discardAll (s.st a).heldMessages (s.emptied a))).lock l) := by
  simp only [State.retired, enterOffline, purge_withdrawn]
  generalize discardAll (s.st a).heldMessages (s.emptied a) = u
  simp

theorem retired_purged_other (other : b ≠ a) : (s.retired a).st b =
    (releaseHoldings a (discardAll (s.st a).heldMessages (s.emptied a))).st b := by
  simp only [State.retired, enterOffline, purge_withdrawn, answered_other _ _ _ _ other, State.st_modSt_ne _ _ other]

theorem retired_state (s : State) (a : StationId) : ((s.retired a).st a).state = .offline := by
  simp [State.retired, enterOffline_state]

/-- The waiters that the handoff of a lock at OFFLINE entry may give it to. -/
theorem emptied_present (none_waits : s.roomQueue = []) (l : LockId) :
    (s.emptied a).present ((s.emptied a).lock l).waiters =
      (s.lock l).waiters.filter fun w => decide (w ≠ a ∧ (s.st w).state = .online) := by
  have present : ∀ w, decide (((s.emptied a).st w).state = .online) = decide (w ≠ a ∧ (s.st w).state = .online) :=
    fun w => by
      by_cases own : w = a
      · subst own; simp [emptied_state]
      · simp [emptied_other none_waits own, own]
  have erased : ∀ ws : List StationId, (ws.erase a).filter (fun w => decide (w ≠ a ∧ (s.st w).state = .online)) =
      ws.filter fun w => decide (w ≠ a ∧ (s.st w).state = .online) := by
    intro ws
    induction ws with
    | nil => rfl
    | cons w rest ih =>
      by_cases own : w = a
      · subst own; simp
      · rw [List.erase_cons_tail (by simpa using own), List.filter_cons, List.filter_cons, ih]
  simp only [State.present, present, emptied_lock none_waits]
  split
  · exact erased _
  · rfl
end

/-- Settles O13: the run of DISCARDED ends, and the release of the station's locks, which touches none of them. -/
theorem offlineEntryDiscardsHeldMessages : Obligations.OfflineEntryDiscardsHeldMessages := by
  rintro a s free online idle none_waits held rfl nodup used
  have run : Discards s.msg (s.st a).heldMessages (s.emptied a) := discards_emptied none_waits nodup used
  obtain ⟨freeDescs, freeCells, msg, chan, lock⟩ := retired_purged s a
  obtain ⟨freeDescs', freeCells', channels', -⟩ := emptied_frame none_waits a
  have chan' : ∀ c, (s.emptied a).chan c = s.chan c := fun c => by rw [State.chan, channels', State.chan]
  refine ⟨s.retired a, exec_retire_of_idle free online idle none_waits, ?_, ?_, fun d mem => ?_, retired_state s a,
    fun c => ?_, fun c => ?_, fun d m l ws mem hm carries alone list => ?_, fun b mine other here short due => ?_,
    fun b other away => ?_⟩
  · rw [freeDescs, discardAll_freeDescs run, freeDescs']
    rfl
  · rw [freeCells, discardAll_freeCells run, freeCells']
    rfl
  · rw [msg, discardAll_msg run]
    exact if_pos mem
  · rw [chan, discardAll_chan run, chan']
    rfl
  · rw [chan, discardAll_chan run, chan']
  · rw [← emptied_present none_waits l] at list
    subst list
    obtain ⟨freed, given⟩ := discardAll_lock_of_carried run mem hm carries alone
    rw [lock]
    refine ⟨fun none_present => ?_, fun w rest first => ?_⟩
    · have left := freed none_present
      rw [releaseHoldings_lock_of_not_held (by simp [left]), left]
    · obtain ⟨passed, granted⟩ := given w rest first
      have other : w ≠ a := fun same => by
        have present := granted.1
        simp [same, emptied_state] at present
      rw [releaseHoldings_lock_of_not_held (by simpa [passed] using other)]
      obtain ⟨-, unwaiting, last, flag⟩ := granted.releaseHoldings a
      rw [retired_purged_other other]
      exact ⟨passed, unwaiting, last, flag⟩
  · have same := emptied_other none_waits other
    obtain ⟨confirms, overflow, flag⟩ := discardAll_confirms run (by rwa [same]) (by rwa [same]) mine due
    rw [same] at confirms overflow flag
    rw [retired_purged_other other]
    refine ⟨by simpa using confirms, by simpa using overflow, fun some_due room => ?_⟩
    exact releaseHoldings_keeps (P := fun t => (t.st b).pendingFlags.getLsbD 6 = true)
      (fun l _ ht => handoff_flag l ht) a (flag some_due room)
  · have same := emptied_other none_waits other
    have kept := discardAll_unconfirmed (s := s.emptied a) (b := b) (by rwa [same]) (s.st a).heldMessages
    rw [same] at kept
    rw [retired_purged_other other]
    simpa using kept

end Sys2Proof.Machine
end
